-- ==== Sys2Proof/Word.lean ====
section
/-! DEFINITION. The word types of the UCC block (00_scope.md R11, R12). -/

namespace Sys2Proof

/-- A register value: 32 bits (R11). -/
abbrev Word := BitVec 32

/-- One 8-bit code unit of the string buffer (R16, R40). -/
abbrev Byte := BitVec 8

/-- A packed RGB number as the palette buffer stores it: 24 bits (R41). -/
abbrev Colour := BitVec 24

/-- A byte offset inside the 512-byte register window: 9 bits (R11, R80). -/
abbrev Offset := BitVec 9

end Sys2Proof
end

