-- ==== Sys2Proof/Config.lean ====
section
/-! DEFINITION. What an implementation fixes (00_scope.md section 4): the build parameters PAL_MAX and RANDGEN,
and the platform's BASE. -/

namespace Sys2Proof

/-- The build parameters the register CFG reports (R7, R9, R32). They are plain data so that State can hold them
and every statement covers every build (DESIGN CHOICE, safe: log 1). `palMaxPred` is PAL_MAX - 1, so that
1 ≤ PAL_MAX ≤ 64 holds of every build. -/
structure Build where
  palMaxPred : Fin 64
  randgen    : Bool
  deriving DecidableEq, Repr

/-- PAL_MAX, the number of palette entries, 1 to 64 (R7). -/
def Build.palMax (b : Build) : Nat := b.palMaxPred.val + 1

/-- The default build: PAL_MAX = 64 and RANDGEN = 1 (R7, R9). -/
def Build.standard : Build := ⟨63, true⟩

/-- BASE, the bus address of the register window: set by the platform and left open (R8), so it has no body
(log 2). -/
opaque Config.base : Nat

end Sys2Proof
end

