-- ==== Sys2Proof/Syntax.lean ====
section
/-! DEFINITION. The 24 commands (30_encoding.md R113), one constructor for each row of spec/opcode_table.json.
No command has an operand field: every operand is implicit (R111, R114, R116). -/

namespace Sys2Proof

/-- A command of the block, in the order of the opcode map (R113). -/
inductive Instr where
  | packRgb
  | packRgba
  | unpackRgb
  | unpackRgba
  | hex2num
  | hex2numFast
  | num2hex6
  | num2hex8
  | isHex
  | hex2rgb
  | hex2rgba
  | rgb2hex
  | rgba2hex
  | hsv2rgb
  | rgb2hsv
  | palEven
  | palGolden
  | randRange
  | randRgb
  | randRgba
  | randBrightRgb
  | randPastelRgb
  | randBrightRgba
  | randPastelRgba
  deriving DecidableEq, Repr

end Sys2Proof
end

