-- ==== Sys2Proof/WellFormed.lean ====
section
/-! DEFINITION. Which commands a build has: the random colour unit is optional (00_scope.md R5, R9). -/

namespace Sys2Proof

/-- The seven commands of the random colour unit, opcodes 0x50 to 0x56 (R5, R113). -/
def Instr.ofRandomUnit : Instr → Bool
  | .randRange | .randRgb | .randRgba | .randBrightRgb | .randPastelRgb | .randBrightRgba | .randPastelRgba => true
  | .packRgb | .packRgba | .unpackRgb | .unpackRgba | .hex2num | .hex2numFast | .num2hex6 | .num2hex8
  | .isHex | .hex2rgb | .hex2rgba | .rgb2hex | .rgba2hex | .hsv2rgb | .rgb2hsv | .palEven | .palGolden => false

/-- The build has the command: the seven random commands exist only when RANDGEN = 1 (R9, R113). -/
def Instr.wf (b : Build) (i : Instr) : Bool := !i.ofRandomUnit || b.randgen

end Sys2Proof
end

