-- ==== Sys2Proof/Decode.lean ====
section
/-! DEFINITION. Decoding a command word (30_encoding.md R117, R119) and, after it, the encoder (R111, R113). -/

namespace Sys2Proof

/-- Why a command word is illegal (R117). -/
inductive Illegal where
  /-- (a) RSV, bits 31 to 8, is not 0. -/
  | reservedBits
  /-- (b) OPCODE is not in the opcode map. -/
  | unassignedOpcode
  /-- (c) a random opcode in a build with RANDGEN = 0. -/
  | randomUnitAbsent
  deriving DecidableEq, Repr

/-- What a command word decodes to: a command, or illegal for a named reason (R119). -/
inductive Decoded where
  | command (i : Instr)
  | illegal (why : Illegal)
  deriving DecidableEq, Repr

/-- The opcode map read from number to command (R113, R119), before RANDGEN is looked at. -/
def commandOfOpcode : Nat → Option Instr
  | 0x10 => some .packRgb
  | 0x11 => some .packRgba
  | 0x12 => some .unpackRgb
  | 0x13 => some .unpackRgba
  | 0x20 => some .hex2num
  | 0x21 => some .hex2numFast
  | 0x22 => some .num2hex6
  | 0x23 => some .num2hex8
  | 0x24 => some .isHex
  | 0x25 => some .hex2rgb
  | 0x26 => some .hex2rgba
  | 0x27 => some .rgb2hex
  | 0x28 => some .rgba2hex
  | 0x30 => some .hsv2rgb
  | 0x31 => some .rgb2hsv
  | 0x40 => some .palEven
  | 0x41 => some .palGolden
  | 0x50 => some .randRange
  | 0x51 => some .randRgb
  | 0x52 => some .randRgba
  | 0x53 => some .randBrightRgb
  | 0x54 => some .randPastelRgb
  | 0x55 => some .randBrightRgba
  | 0x56 => some .randPastelRgba
  | _ => none

/-- `decode` of R119, total on all 2^32 words. -/
def decode (b : Build) (w : Word) : Decoded :=
  if w.extractLsb 31 8 ≠ 0 then .illegal .reservedBits
  else
    match commandOfOpcode (w.extractLsb 7 0).toNat with
    | none => .illegal .unassignedOpcode
    | some i => if i.ofRandomUnit && !b.randgen then .illegal .randomUnitAbsent else .command i

/-- OPCODE, bits 7 to 0 of a command's word (R111, R113). -/
def Instr.opcode : Instr → BitVec 8
  | .packRgb => 0x10
  | .packRgba => 0x11
  | .unpackRgb => 0x12
  | .unpackRgba => 0x13
  | .hex2num => 0x20
  | .hex2numFast => 0x21
  | .num2hex6 => 0x22
  | .num2hex8 => 0x23
  | .isHex => 0x24
  | .hex2rgb => 0x25
  | .hex2rgba => 0x26
  | .rgb2hex => 0x27
  | .rgba2hex => 0x28
  | .hsv2rgb => 0x30
  | .rgb2hsv => 0x31
  | .palEven => 0x40
  | .palGolden => 0x41
  | .randRange => 0x50
  | .randRgb => 0x51
  | .randRgba => 0x52
  | .randBrightRgb => 0x53
  | .randPastelRgb => 0x54
  | .randBrightRgba => 0x55
  | .randPastelRgba => 0x56

/-- The one word of a command: RSV = 0 above OPCODE (R111, R112). -/
def encode (i : Instr) : Word := (0 : BitVec 24) ++ i.opcode

/-- The command of the default build that the decoder reads from a table row's bits (log 15). A command is exactly
one 32-bit word (R112): bits from `nbits` on are 0, and a number with bits above bit 31 is no command word. -/
def decodeTableWord (nbits w : Nat) : Option Instr :=
  if w % 2 ^ nbits < 2 ^ 32 then
    match decode Build.standard (BitVec.ofNat 32 (w % 2 ^ nbits)) with
    | .command i => some i
    | .illegal _ => none
  else none

end Sys2Proof
end

