-- ==== Sys2Proof/Machine/State.lean ====
section
/-! DEFINITION. The state of the UCC block (10_state.md) and the state right after reset (R46). -/

namespace Sys2Proof.Machine

/-- The error codes of STATUS[7:4] (60_exceptions.md R281). Codes 5 to 15 are 'never produced', so they have no
constructor. -/
inductive ErrCode where
  /-- 0: no error. -/
  | none
  /-- 1, ILLEGAL_COMMAND (R282). -/
  | illegalCommand
  /-- 2, INVALID_FORMAT (R283). -/
  | invalidFormat
  /-- 3, OUT_OF_RANGE (R284). -/
  | outOfRange
  /-- 4, INVALID_ARGUMENT (R285). -/
  | invalidArgument
  deriving DecidableEq, Repr

/-- The operands a command can read: ARG0 to ARG3, STRLEN and STR (R42, R114). The engine holds the snapshot of
them taken at acceptance. -/
structure Operands where
  args   : Vector Word 4
  strlen : BitVec 8
  str    : Vector Byte 16
  deriving DecidableEq, Repr

/-- The hidden engine state (R42): Idle, or Busy with the accepted command word, the operand snapshot, and the random
words taken so far for the command in flight (R301), oldest first. -/
inductive Engine where
  | idle
  | busy (cmd : Word) (ops : Operands) (drawn : List Word)
  deriving DecidableEq, Repr

/-- The two responses of the slave port (20_memory.md R80). -/
inductive RespCode where
  | okay
  | error
  deriving DecidableEq, Repr

/-- The answer to one bus access: OKAY or ERROR and, for a read, a 32-bit data word (R80). -/
structure Response where
  code : RespCode
  data : Option Word
  deriving DecidableEq, Repr

/-- One bus access of the host: offset, byte enable and, for a write, the value (R80, R81). -/
inductive BusAccess where
  | read (off : Offset) (be : BitVec 4)
  | write (off : Offset) (be : BitVec 4) (v : Word)
  deriving DecidableEq, Repr

/-- One event of the world around the block or one turn of its engine (60_exceptions.md R291, R311; log 3). -/
inductive Input where
  /-- The host makes one bus access. -/
  | bus (a : BusAccess)
  /-- The engine has its turn. -/
  | engine
  /-- The random source presents one word: `rng_valid` = 1 with this `rng_data` (R301). -/
  | rng (u : Word)
  /-- The reset pin takes this level: `false` asserts `rst_n`, `true` releases it (R320). -/
  | rstN (level : Bool)
  deriving DecidableEq, Repr

/-- The state of the block. Every register of 10_state.md, the hidden engine state, the random-source request and the
reset pin; and, as the model's own plain data, the answer of the last bus access (`resp`, log 5) and the events still to
come (`inputs`, log 3). -/
structure State where
  /-- The build parameters CFG reports; no step changes them (R32). -/
  cfg    : Build
  /-- CTRL.IRQ_EN (R33). -/
  irqEn  : Bool
  /-- Idle or Busy(cmd, ops); STATUS.BUSY is this being busy (R34, R42; log 6). -/
  engine : Engine
  /-- STATUS.DONE (R34). -/
  done   : Bool
  /-- STATUS.ERR (R34). -/
  err    : Bool
  /-- STATUS.OVR (R34). -/
  ovr    : Bool
  /-- STATUS.ERRCODE (R34, R281). -/
  errcode : ErrCode
  /-- CMD, the last accepted command word (R35). -/
  cmd    : Word
  /-- PALCNT (R36). -/
  palcnt : BitVec 7
  /-- STRLEN (R37). -/
  strlen : BitVec 8
  /-- ARG0 to ARG3 (R38). -/
  args   : Vector Word 4
  /-- RES0 to RES3 (R39). -/
  res    : Vector Word 4
  /-- STR[0] to STR[15] (R40). -/
  str    : Vector Byte 16
  /-- PAL[k]; entries from PAL_MAX on have no offset and are never written (R41; log 7). -/
  pal    : Vector Colour 64
  /-- The output rng_req: a request to the random source is outstanding (R301). -/
  rngReq : Bool
  /-- The pin rst_n: true when released (R320). -/
  rstN   : Bool
  /-- The answer of the bus access last presented: none before the first one and while rst_n is low (R80, R320). -/
  resp   : Option Response
  /-- The events still to come, oldest first; when none is left the engine has its turns (R311, R335). -/
  inputs : List Input
  deriving DecidableEq, Repr

/-- The block has no fault: an error is a command's completion (R280), an illegal bus access is answered ERROR (R286),
and the block goes on after both. So this type has no constructor: that no step stops is safe, since the spec gives
every event its effect (log 9). -/
inductive Fault where
  deriving DecidableEq, Repr

/-- Why an instruction has no meaning. -/
inductive Refusal where
  /-- Raised only by an arm of `exec` for an instruction not modelled yet, never by a meaning: safe. This model has no
  such arm. -/
  | notModelled (mnemonic : String)
  deriving DecidableEq, Repr

/-- What one step ends in. -/
abbrev Outcome := Host.Outcome State Fault Refusal

/-- STATUS.BUSY: the engine is busy (R34, R42). -/
def State.busy (s : State) : Bool :=
  match s.engine with
  | .idle => false
  | .busy _ _ _ => true

/-- The machine right after reset (R46, R321, R323): every register 0, the engine Idle, no request outstanding, rst_n
released, the default build (R7, R9), no event pending. -/
def State.reset : State where
  cfg := Build.standard
  irqEn := false
  engine := .idle
  done := false
  err := false
  ovr := false
  errcode := .none
  cmd := 0
  palcnt := 0
  strlen := 0
  args := Vector.replicate 4 0
  res := Vector.replicate 4 0
  str := Vector.replicate 16 0
  pal := Vector.replicate 64 0
  rngReq := false
  rstN := true
  resp := none
  inputs := []

end Sys2Proof.Machine
end

