-- ==== Sys2Proof/Machine/Flags.lean ====
section
/-! DEFINITION. The block's flags, all in STATUS (10_state.md R34), and the interrupt output computed from them
(R43, R300). There are no condition codes. -/

namespace Sys2Proof.Machine

/-- The number of an error code in STATUS[7:4] (R281). -/
def ErrCode.number : ErrCode → BitVec 4
  | .none => 0
  | .illegalCommand => 1
  | .invalidFormat => 2
  | .outOfRange => 3
  | .invalidArgument => 4

/-- STATUS as the host reads it: ERRCODE in [7:4], OVR [3], ERR [2], DONE [1], BUSY [0], and 0 above (R34, R45). -/
def statusWord (s : State) : Word :=
  (0 : BitVec 24) ++ s.errcode.number ++ BitVec.ofBool s.ovr ++ BitVec.ofBool s.err ++ BitVec.ofBool s.done
    ++ BitVec.ofBool s.busy

/-- The flags an accepted CMD write clears: DONE, ERR and ERRCODE, not OVR (R34, R35). BUSY is the engine (log 6). -/
def flagsAtAcceptance (s : State) : State := { s with done := false, err := false, errcode := .none }

/-- The flags a completion writes: DONE, ERR and ERRCODE, where code `none` says that no error was raised
(70_reset_and_hazards.md R330). BUSY is the engine (log 6). -/
def flagsAtCompletion (c : ErrCode) (s : State) : State :=
  { s with done := true, err := decide (c ≠ .none), errcode := c }

/-- A host write of STATUS: writing 1 clears DONE (bit 1) and OVR (bit 3); every other bit is ignored (R34). -/
def writeStatus (v : Word) (s : State) : State :=
  { s with done := s.done && !v.getLsbD 1, ovr := s.ovr && !v.getLsbD 3 }

/-- The level output `irq` = CTRL.IRQ_EN AND STATUS.DONE, which is not stored (R43, R300). -/
def State.irq (s : State) : Bool := s.irqEn && s.done

end Sys2Proof.Machine
end

