-- ==== Sys2Proof/Machine/Operands.lean ====
section
/-! DEFINITION. How a command reads its operands: the snapshot (10_state.md R42), the signed and unsigned readings of
ARG (30_encoding.md R114), the channel check (40_packing.md R140), the string and its digits (41_hex.md R160 to R163),
the rounding helper (00_scope.md R13), and the packed colour (20_memory.md R87). -/

namespace Sys2Proof.Machine

/-- The operand registers and the string buffer as they stand now (R42). -/
def State.live (s : State) : Operands := ⟨s.args, s.strlen, s.str⟩

/-- The operands a command reads: the snapshot the busy engine holds. When the engine is idle no command runs; the
live registers stand in, so that a meaning is a function of every state (DESIGN CHOICE, safe: log 12). -/
def State.ops (s : State) : Operands :=
  match s.engine with
  | .idle => s.live
  | .busy _ ops _ => ops

/-- The random words the command in flight has taken so far, oldest first (R301). -/
def State.drawn (s : State) : List Word :=
  match s.engine with
  | .idle => []
  | .busy _ _ drawn => drawn

/-- u(ARGi): operand register i read unsigned (R114). -/
def Operands.u (o : Operands) (i : Fin 4) : Nat := o.args[i].toNat

/-- s(ARGi): operand register i read as two's complement (R12, R114). -/
def Operands.s (o : Operands) (i : Fin 4) : Int := o.args[i].toInt

/-- A channel operand is in range: `checkChannel` of R140 does not raise. -/
def channelOk (x : Nat) : Bool := decide (x ≤ 255)

/-- The string STR[0..L-1] for L = STRLEN ≤ 16 (R161). -/
def Operands.text (o : Operands) : List Byte := o.str.toList.take o.strlen.toNat

/-- The character '#' (R16). -/
def hashChar : Byte := 0x23

/-- The body of a string: ONE optional leading '#' removed (R161). -/
def stringBody : List Byte → List Byte
  | [] => []
  | c :: rest => if c = hashChar then rest else c :: rest

/-- The value of a hex digit, and 16 for every other code unit (R160). -/
def digitValue (c : Byte) : Nat :=
  let n := c.toNat
  if 0x30 ≤ n ∧ n ≤ 0x39 then n - 0x30
  else if 0x41 ≤ n ∧ n ≤ 0x46 then n - 0x37
  else if 0x61 ≤ n ∧ n ≤ 0x66 then n - 0x57
  else 16

/-- The code unit is one of 0-9, a-f, A-F (R160). -/
def isHexDigit (c : Byte) : Bool := decide (digitValue c ≤ 15)

/-- The safe fold `acc*16 + digit`, exact over the naturals (R163). -/
def foldSafe (b : List Byte) : Nat := b.foldl (fun acc c => acc * 16 + digitValue c) 0

/-- The fast fold `(acc << 4) | digit` modulo 2^32 (R163). -/
def foldFast (b : List Byte) : Word := b.foldl (fun acc c => (acc <<< 4) ||| BitVec.ofNat 32 (digitValue c)) 0

/-- The integer nearest to n/d, a half going to the larger one, for d > 0 (R13). -/
def roundHalfUp (n d : Nat) : Nat := (2 * n + d) / (2 * d)

/-- `clamp(x, lo, hi)` over the integers (R13). -/
def clamp (x lo hi : Int) : Int := min (max x lo) hi

/-- The packed RGB number: R highest, then G, B (R87, R141). -/
def packRgbNumber (r g b : Nat) : Nat := r * 65536 + g * 256 + b

/-- The packed RGBA number: R highest, then G, B, A (R87, R142). -/
def packRgbaNumber (r g b a : Nat) : Nat := r * 16777216 + g * 65536 + b * 256 + a

end Sys2Proof.Machine
end

