-- ==== Sys2Proof/Machine/Ops.lean ====
section
/-! DEFINITION. The operations over the registers that the meanings share: reset (10_state.md R46), acceptance of a
command (R35), its completion with or without an error (70_reset_and_hazards.md R330, 60_exceptions.md R280), the writes of
results, strings and palette entries, and the draws (R301). -/

namespace Sys2Proof.Machine

/-- Every register at its reset value, the engine Idle and no request outstanding (R46, R320, R322). The build, the pin,
the last bus answer and the coming events are no registers and stay. -/
def resetRegisters (s : State) : State :=
  { State.reset with cfg := s.cfg, rstN := s.rstN, resp := s.resp, inputs := s.inputs }

/-- An accepted CMD write: the word goes into CMD, the engine takes it with a snapshot of the operands and no word drawn,
and DONE, ERR and ERRCODE are cleared (R35, R42). -/
def acceptCommand (w : Word) (s : State) : State :=
  { flagsAtAcceptance s with cmd := w, engine := .busy w s.live [] }

/-- The completion write of STATUS and the engine's return to Idle; no request is left outstanding (R330). -/
def complete (c : ErrCode) (s : State) : State :=
  { flagsAtCompletion c s with engine := .idle, rngReq := false }

/-- A command that completes without error, its outputs already in `s` (R330). -/
def finish (s : State) : Outcome := .next (complete .none s)

/-- A command that raises an error: it completes with the code and commits nothing else. This is the block's only
'exception entry' (R280, R292); `acceptCommand` and `writeStatus` are its 'return' (R293). -/
def raise (c : ErrCode) (s : State) : Outcome := .next (complete c s)

/-- RES[i] <- v for a value below 2^32 (R14, R39). -/
def State.setRes (s : State) (i : Fin 4) (v : Nat) : State := { s with res := s.res.set i (BitVec.ofNat 32 v) }

/-- String write-back: STRLEN <- n, STR[j] <- t[j] for j < n, and 0 for the rest of the buffer (41_hex.md R170). -/
def State.writeBack (s : State) (t : List Byte) : State :=
  { s with strlen := BitVec.ofNat 8 t.length, str := Vector.ofFn fun j : Fin 16 => t.getD j.val 0 }

/-- The palette commit: PAL[k] <- colour k for k < count, the other entries unchanged, and PALCNT <- count
(43_palette.md R230). -/
def State.commitPalette (s : State) (count : Nat) (colour : Nat → Nat) : State :=
  { s with
    pal := Vector.ofFn fun k : Fin 64 => if k.val < count then BitVec.ofNat 24 (colour k.val) else s.pal[k]
    palcnt := BitVec.ofNat 7 count }

/-- `Draw()` with no word delivered yet: the request is raised and the command stays in flight (R301, R335). -/
def waitForWord (s : State) : Outcome := .next { s with rngReq := true }

/-- Run `k` on the first word drawn, or wait for it (R15, R301). -/
def withDraw (s : State) (k : Word → Outcome) : Outcome :=
  match s.drawn with
  | u :: _ => k u
  | [] => waitForWord s

/-- Run `k` on three words in the order they were drawn, or wait for the next one (R96). -/
def withThreeDraws (s : State) (k : Word → Word → Word → Outcome) : Outcome :=
  match s.drawn with
  | ur :: ug :: ub :: _ => k ur ug ub
  | _ => waitForWord s

/-- Run `k` on four words in the order they were drawn, or wait for the next one (R96). -/
def withFourDraws (s : State) (k : Word → Word → Word → Word → Outcome) : Outcome :=
  match s.drawn with
  | ur :: ug :: ub :: ua :: _ => k ur ug ub ua
  | _ => waitForWord s

/-- Run `k` on the channels ARG0 to ARG2, or raise OUT_OF_RANGE when one exceeds 255 (R140, R284). -/
def withRgb (s : State) (k : Nat → Nat → Nat → Outcome) : Outcome :=
  let r := s.ops.u 0
  let g := s.ops.u 1
  let b := s.ops.u 2
  if channelOk r && channelOk g && channelOk b then k r g b else raise .outOfRange s

/-- Run `k` on the channels ARG0 to ARG3, or raise OUT_OF_RANGE when one exceeds 255 (R140, R284). -/
def withRgba (s : State) (k : Nat → Nat → Nat → Nat → Outcome) : Outcome :=
  let r := s.ops.u 0
  let g := s.ops.u 1
  let b := s.ops.u 2
  let a := s.ops.u 3
  if channelOk r && channelOk g && channelOk b && channelOk a then k r g b a else raise .outOfRange s

/-- Run `k` on the string's body, or raise INVALID_FORMAT when the string is too long, the body's length is not one the
command accepts, or a body byte is no hex digit (R161, R162, R283). -/
def withBody (s : State) (lengthOk : Nat → Bool) (k : List Byte → Outcome) : Outcome :=
  if 16 < s.ops.strlen.toNat then raise .invalidFormat s
  else
    let b := stringBody s.ops.text
    if lengthOk b.length && b.all isHexDigit then k b else raise .invalidFormat s

/-- Run `k` on the palette count, or raise INVALID_ARGUMENT when it is not in 1..PAL_MAX (R230, R285). -/
def withCount (s : State) (k : Nat → Outcome) : Outcome :=
  let count := s.ops.s 0
  if count ≤ 0 || (s.cfg.palMax : Int) < count then raise .invalidArgument s else k count.toNat

end Sys2Proof.Machine
end

