-- ==== Sys2Proof/Machine/Bus.lean ====
section
/-! DEFINITION. The register window: the map (10_state.md section 1), reads and writes of each register (R31 to R41,
R331), and a whole bus access with its response (20_memory.md R80 to R84). -/

namespace Sys2Proof.Machine

/-- A register of the map (10_state.md section 1). -/
inductive Reg where
  | id
  | cfg
  | ctrl
  | status
  | cmd
  | palcnt
  | strlen
  | arg (i : Fin 4)
  | res (i : Fin 4)
  | strbuf (i : Fin 4)
  | pal (k : Fin 64)
  deriving DecidableEq, Repr

/-- The offset of a register (10_state.md section 1); the names a host program may write for it (R121). -/
def Reg.offset : Reg → Offset
  | .id => 0x000
  | .cfg => 0x004
  | .ctrl => 0x008
  | .status => 0x00C
  | .cmd => 0x010
  | .palcnt => 0x014
  | .strlen => 0x018
  | .arg i => BitVec.ofNat 9 (0x020 + 4 * i.val)
  | .res i => BitVec.ofNat 9 (0x030 + 4 * i.val)
  | .strbuf i => BitVec.ofNat 9 (0x040 + 4 * i.val)
  | .pal k => BitVec.ofNat 9 (0x100 + 4 * k.val)

/-- The register at an offset; none at a misaligned or a reserved one (R82, R84). -/
def regAt (b : Build) (off : Offset) : Option Reg :=
  let o := off.toNat
  if o % 4 ≠ 0 then none
  else if o = 0x000 then some .id
  else if o = 0x004 then some .cfg
  else if o = 0x008 then some .ctrl
  else if o = 0x00C then some .status
  else if o = 0x010 then some .cmd
  else if o = 0x014 then some .palcnt
  else if o = 0x018 then some .strlen
  else if 0x020 ≤ o ∧ o < 0x030 then some (.arg (Fin.ofNat 4 ((o - 0x020) / 4)))
  else if 0x030 ≤ o ∧ o < 0x040 then some (.res (Fin.ofNat 4 ((o - 0x030) / 4)))
  else if 0x040 ≤ o ∧ o < 0x050 then some (.strbuf (Fin.ofNat 4 ((o - 0x040) / 4)))
  else if 0x100 ≤ o ∧ o < 0x100 + 4 * b.palMax then some (.pal (Fin.ofNat 64 ((o - 0x100) / 4)))
  else none

/-- The ID constant (R31). -/
def idValue : Word := 0x55430007

/-- CFG: PAL_MAX in [7:0], RANDGEN in [8], 0 above (R32). -/
def cfgWord (b : Build) : Word := (0 : BitVec 23) ++ BitVec.ofBool b.randgen ++ BitVec.ofNat 8 b.palMax

/-- STRBUF(i), the bytes STR[4i+3], STR[4i+2], STR[4i+1], STR[4i] from the highest lane down (R40, R88, R89). -/
def strWord (str : Vector Byte 16) (i : Fin 4) : Word :=
  str[4 * i.val + 3] ++ str[4 * i.val + 2] ++ str[4 * i.val + 1] ++ str[4 * i.val]

/-- The string buffer after STRBUF(i) <- v: lane j mod 4 of the word into STR[j] for j div 4 = i (R40, R88). -/
def setStrWord (str : Vector Byte 16) (i : Fin 4) (v : Word) : Vector Byte 16 :=
  Vector.ofFn fun j : Fin 16 => if j.val / 4 = i.val then v.extractLsb' (8 * (j.val % 4)) 8 else str[j]

/-- The current value of a register as a host reads it; reserved bits and SRST read 0 (R31 to R41, R45). -/
def readReg (s : State) : Reg → Word
  | .id => idValue
  | .cfg => cfgWord s.cfg
  | .ctrl => (0 : BitVec 31) ++ BitVec.ofBool s.irqEn
  | .status => statusWord s
  | .cmd => s.cmd
  | .palcnt => (0 : BitVec 25) ++ s.palcnt
  | .strlen => (0 : BitVec 24) ++ s.strlen
  | .arg i => s.args[i]
  | .res i => s.res[i]
  | .strbuf i => strWord s.str i
  | .pal k => (0 : BitVec 8) ++ s.pal[k]

/-- A write of CTRL: SRST = 1 is the soft reset, whatever IRQ_EN says, otherwise IRQ_EN is stored (R33, R322). -/
def writeCtrl (v : Word) (s : State) : State :=
  if v.getLsbD 1 then resetRegisters s else { s with irqEn := v.getLsbD 0 }

/-- A write that STATUS.BUSY guards: dropped with OVR set while BUSY = 1 (R331, R287). -/
def guardedWrite (s : State) (whenIdle : State) : State := if s.busy then { s with ovr := true } else whenIdle

/-- The write behaviour of each register; a write of a read-only one is ignored (R31 to R41, R83, R331). -/
def writeReg (s : State) (v : Word) : Reg → State
  | .id => s
  | .cfg => s
  | .ctrl => writeCtrl v s
  | .status => writeStatus v s
  | .cmd => guardedWrite s (acceptCommand v s)
  | .palcnt => s
  | .strlen => guardedWrite s { s with strlen := v.extractLsb' 0 8 }
  | .arg i => guardedWrite s { s with args := s.args.set i v }
  | .res _ => s
  | .strbuf i => guardedWrite s { s with str := setStrWord s.str i v }
  | .pal _ => s

/-- The register an access reaches: none unless all four byte enables are set and the offset is legal (R80, R81). -/
def BusAccess.target (b : Build) : BusAccess → Option Reg
  | .read off be => if be = 0b1111 then regAt b off else none
  | .write off be _ => if be = 0b1111 then regAt b off else none

/-- The state after a legal access of a register, and the answer (R80). -/
def serveAccess (s : State) (r : Reg) : BusAccess → State
  | .read _ _ => { s with resp := some ⟨.okay, some (readReg s r)⟩ }
  | .write _ _ v => { writeReg s v r with resp := some ⟨.okay, none⟩ }

/-- The ERROR answer: no state change, and data 0 for a read (R80, R81, R82, R84). -/
def refuseAccess (s : State) : BusAccess → State
  | .read _ _ => { s with resp := some ⟨.error, some 0⟩ }
  | .write _ _ _ => { s with resp := some ⟨.error, none⟩ }

/-- One bus access. While rst_n is low it is not serviced and has no answer (R320). -/
def busAccess (a : BusAccess) (s : State) : State :=
  if s.rstN then
    match a.target s.cfg with
    | some r => serveAccess s r a
    | none => refuseAccess s a
  else { s with resp := none }

/-- The bus address of an offset of the window (00_scope.md R8, R85). -/
def addressOf (off : Offset) : Nat := Config.base + off.toNat

/-- The offset at which a bus address reaches a window that lies at `base`: none outside its 512 bytes (R8, R85). -/
def windowOffset (base addr : Nat) : Option Offset :=
  if base ≤ addr ∧ addr < base + 512 then some (BitVec.ofNat 9 (addr - base)) else none

end Sys2Proof.Machine
end

