-- ==== Sys2Proof/Machine/Packing.lean ====
section
/-! DEFINITION. Packing and unpacking (40_packing.md R141 to R144). -/

namespace Sys2Proof.Machine

/-- Byte lane i of a number: bits 8i+7 down to 8i, unsigned (R143, R144). -/
def byteLane (n i : Nat) : Nat := n / 256 ^ i % 256

/-- The three channels of a packed RGB number into RES0 to RES2 (R143). -/
def State.setRgb (s : State) (n : Nat) : State :=
  ((s.setRes 0 (byteLane n 2)).setRes 1 (byteLane n 1)).setRes 2 (byteLane n 0)

/-- The four channels of a packed RGBA number into RES0 to RES3 (R144). -/
def State.setRgba (s : State) (n : Nat) : State :=
  (((s.setRes 0 (byteLane n 3)).setRes 1 (byteLane n 2)).setRes 2 (byteLane n 1)).setRes 3 (byteLane n 0)

/-- PACK_RGB (R141). -/
def execPackRgb (s : State) : Outcome := withRgb s fun r g b => finish (s.setRes 0 (packRgbNumber r g b))

/-- PACK_RGBA (R142). -/
def execPackRgba (s : State) : Outcome := withRgba s fun r g b a => finish (s.setRes 0 (packRgbaNumber r g b a))

/-- UNPACK_RGB: bits 31 to 24 of the number are ignored (R143). -/
def execUnpackRgb (s : State) : Outcome := finish (s.setRgb (s.ops.u 0))

/-- UNPACK_RGBA (R144). -/
def execUnpackRgba (s : State) : Outcome := finish (s.setRgba (s.ops.u 0))

end Sys2Proof.Machine
end

