-- ==== Sys2Proof/Machine/Hex.lean ====
section
/-! DEFINITION. The hex codec (41_hex.md R164 to R174). -/

namespace Sys2Proof.Machine

/-- HEX2NUM, the safe path: bodies of 1 to 13 digits; the 52-bit value in RES1[19:0] and RES0 (R164). -/
def execHex2num (s : State) : Outcome :=
  withBody s (fun n => decide (1 ≤ n ∧ n ≤ 13)) fun b =>
    finish ((s.setRes 0 (foldSafe b % 2 ^ 32)).setRes 1 (foldSafe b / 2 ^ 32))

/-- HEX2NUM_FAST, the fast path: bodies of 1 to 7 digits (R165). -/
def execHex2numFast (s : State) : Outcome :=
  withBody s (fun n => decide (1 ≤ n ∧ n ≤ 7)) fun b => finish (s.setRes 0 (foldFast b).toNat)

/-- The strict validator's condition: at most 16 bytes, a leading '#', and 3, 4, 6 or 8 hex digits after it (R166). -/
def isHexString (o : Operands) : Bool :=
  decide (o.strlen.toNat ≤ 16) &&
    match o.text with
    | [] => false
    | c :: rest => c == hashChar && [3, 4, 6, 8].contains rest.length && rest.all isHexDigit

/-- ISHEX: 1 or 0 in RES0, never an error (R166). -/
def execIsHex (s : State) : Outcome := finish (s.setRes 0 (isHexString s.ops).toNat)

/-- HEX2RGB: bodies of 3, 4 or 6 digits, read as one number, no shorthand expansion (R167, R175). -/
def execHex2rgb (s : State) : Outcome :=
  withBody s (fun n => [3, 4, 6].contains n) fun b => finish (s.setRgb (foldFast b).toNat)

/-- HEX2RGBA: bodies of 3, 4, 6 or 8 digits on the safe path (R168, R175). -/
def execHex2rgba (s : State) : Outcome :=
  withBody s (fun n => [3, 4, 6, 8].contains n) fun b => finish (s.setRgba (foldSafe b))

/-- The character of a nibble, lowercase (R169). -/
def hexChar (n : Nat) : Byte := BitVec.ofNat 8 (if n ≤ 9 then 0x30 + n else 0x61 + (n - 10))

/-- The k low hex digits of a number as characters, the most significant first (R169). -/
def hexDigits : Nat → Nat → List Byte
  | 0, _ => []
  | k + 1, n => hexDigits k (n / 16) ++ [hexChar (n % 16)]

/-- '#' and the k low hex digits of a number (R171, R172). -/
def hexText (k n : Nat) : List Byte := hashChar :: hexDigits k n

/-- NUM2HEX6: '#' and six digits; bits 31 to 24 of the number are ignored (R171). -/
def execNum2hex6 (s : State) : Outcome := finish (s.writeBack (hexText 6 (s.ops.u 0)))

/-- NUM2HEX8: '#' and eight digits (R172). -/
def execNum2hex8 (s : State) : Outcome := finish (s.writeBack (hexText 8 (s.ops.u 0)))

/-- RGB2HEX: the six digits of the packed number (R173). -/
def execRgb2hex (s : State) : Outcome :=
  withRgb s fun r g b => finish (s.writeBack (hexText 6 (packRgbNumber r g b)))

/-- RGBA2HEX: the eight digits of the packed number (R174). -/
def execRgba2hex (s : State) : Outcome :=
  withRgba s fun r g b a => finish (s.writeBack (hexText 8 (packRgbaNumber r g b a)))

end Sys2Proof.Machine
end

