-- ==== Sys2Proof/Machine/Hsv.lean ====
section
/-! DEFINITION. The HSV converters (42_hsv.md R201 to R205), exact over the integers with one rounding per output
(R200). -/

namespace Sys2Proof.Machine

/-- The sector permutation: which of C, X, Z is r, g, b in the 60-degree sector i (R202; PRESUMED by the spec itself,
G2: log 10). -/
def sectorTriple (i c x z : Nat) : Nat × Nat × Nat :=
  match i with
  | 0 => (c, x, z)
  | 1 => (x, c, z)
  | 2 => (z, c, x)
  | 3 => (z, x, c)
  | 4 => (x, z, c)
  | _ => (c, z, x)

/-- `hsvCore`: the RGB channels of the hue n/d degrees with percentages sat and val (R201). -/
def hsvCore (n d sat val : Nat) : Nat × Nat × Nat :=
  let w := 60 * d
  let i := n / w
  let f := n % w
  let gx := if i % 2 = 0 then f else w - f
  let chan := fun g => roundHalfUp (255 * val * (sat * g + (100 - sat) * w)) (10000 * w)
  sectorTriple i (chan w) (chan gx) (chan 0)

/-- Three values into RES0 to RES2 (R203, R205). -/
def State.setTriple (s : State) (t : Nat × Nat × Nat) : State :=
  ((s.setRes 0 t.1).setRes 1 t.2.1).setRes 2 t.2.2

/-- HSV2RGB: the hue wraps into 0..359, saturation and value are clamped to 0..100; never an error (R203). -/
def execHsv2rgb (s : State) : Outcome :=
  let hue := (s.ops.s 0 % 360).toNat
  let sat := (clamp (s.ops.s 1) 0 100).toNat
  let val := (clamp (s.ops.s 2) 0 100).toNat
  finish (s.setTriple (hsvCore hue 1 sat val))

/-- The hue of `rgbCore` before rounding, as a numerator over d = max - min: one piece for each channel that is the
maximum, the first of r, g, b on a tie (R204; the pieces are general knowledge, G3: log 10). -/
def hueNumerator (r g b mx d : Nat) : Nat :=
  if mx = r then (60 * ((g : Int) - b) + if g < b then 360 * (d : Int) else 0).toNat
  else if mx = g then (60 * ((b : Int) - r) + 120 * d).toNat
  else (60 * ((r : Int) - g) + 240 * d).toNat

/-- `rgbCore`: hue, saturation and value of three channels (R204). -/
def rgbCore (r g b : Nat) : Nat × Nat × Nat :=
  let mx := max r (max g b)
  let mn := min r (min g b)
  let d := mx - mn
  let val := roundHalfUp (100 * mx) 255
  let sat := if mx = 0 then 0 else roundHalfUp (100 * d) mx
  let hue := if d = 0 then 0 else roundHalfUp (hueNumerator r g b mx d) d
  (hue, sat, val)

/-- RGB2HSV (R205). -/
def execRgb2hsv (s : State) : Outcome := withRgb s fun r g b => finish (s.setTriple (rgbCore r g b))

end Sys2Proof.Machine
end

