-- ==== Sys2Proof/Machine/Palette.lean ====
section
/-! DEFINITION. The palette generators (43_palette.md R230 to R234). -/

namespace Sys2Proof.Machine

/-- The packed RGB number of a triple of channels (43_palette.md introduction, R141). -/
def packTriple (t : Nat × Nat × Nat) : Nat := packRgbNumber t.1 t.2.1 t.2.2

/-- Colour k of the even palette of `count` colours: hue 360k/count degrees exactly, saturation 80, value 60 (R231). -/
def evenColour (count k : Nat) : Nat := packTriple (hsvCore (360 * k) count 80 60)

/-- PAL_EVEN (R231). -/
def execPalEven (s : State) : Outcome :=
  withCount s fun count => finish (s.commitPalette count (evenColour count))

/-- The phase step: the golden-ratio conjugate as a 32-bit fraction of a turn (R232, G4: log 10). -/
def goldenStep : Word := 0x9E3779B9

/-- The phase of colour k from the start phase u, modulo 2^32 (R233). -/
def goldenPhase (u : Word) (k : Nat) : Word := u + BitVec.ofNat 32 k * goldenStep

/-- Colour k of the golden palette: hue P_k·360/2^32 degrees, saturation 70, value 65 (R233). -/
def goldenColour (u : Word) (k : Nat) : Nat := packTriple (hsvCore ((goldenPhase u k).toNat * 360) (2 ^ 32) 70 65)

/-- PAL_GOLDEN: the count is checked before the one draw (R233, R290). -/
def execPalGolden (s : State) : Outcome :=
  withCount s fun count => withDraw s fun u => finish (s.commitPalette count (goldenColour u))

end Sys2Proof.Machine
end

