-- ==== Sys2Proof/Machine/Random.lean ====
section
/-! DEFINITION. The random colour generators (44_random.md R250 to R257). -/

namespace Sys2Proof.Machine

/-- The uniform mapping of a 32-bit draw into lo..hi (R250). -/
def inRange (u : Word) (lo hi : Nat) : Nat := lo + u.toNat * (hi - lo + 1) / 2 ^ 32

/-- A random packed RGB number, each channel in lo..hi, draws in the order r, g, b (R254, R255). -/
def randomRgb (lo hi : Nat) (s : State) : Outcome :=
  withThreeDraws s fun ur ug ub =>
    finish (s.setRes 0 (packRgbNumber (inRange ur lo hi) (inRange ug lo hi) (inRange ub lo hi)))

/-- A random packed RGBA number, each channel in lo..hi, draws in the order r, g, b, a (R256, R257). -/
def randomRgba (lo hi : Nat) (s : State) : Outcome :=
  withFourDraws s fun ur ug ub ua =>
    finish (s.setRes 0
      (packRgbaNumber (inRange ur lo hi) (inRange ug lo hi) (inRange ub lo hi) (inRange ua lo hi)))

/-- RAND_RANGE: the bounds are checked before the draw (R251, R290). -/
def execRandRange (s : State) : Outcome :=
  let lo := s.ops.u 0
  let hi := s.ops.u 1
  if hi < lo then raise .invalidArgument s else withDraw s fun u => finish (s.setRes 0 (inRange u lo hi))

/-- RAND_RGB: uniform over the 24-bit space (R252). -/
def execRandRgb (s : State) : Outcome := withDraw s fun u => finish (s.setRes 0 (inRange u 0 0xFFFFFF))

/-- RAND_RGBA: uniform over the 32-bit space (R253). -/
def execRandRgba (s : State) : Outcome := withDraw s fun u => finish (s.setRes 0 (inRange u 0 0xFFFFFFFF))

/-- RAND_BRIGHT_RGB: each channel in 128..255 (R254). -/
def execRandBrightRgb (s : State) : Outcome := randomRgb 128 255 s

/-- RAND_PASTEL_RGB: each channel in 180..230 (R255). -/
def execRandPastelRgb (s : State) : Outcome := randomRgb 180 230 s

/-- RAND_BRIGHT_RGBA: each channel, alpha too, in 128..255 (R256). -/
def execRandBrightRgba (s : State) : Outcome := randomRgba 128 255 s

/-- RAND_PASTEL_RGBA: each channel, alpha too, in 180..230 (R257). -/
def execRandPastelRgba (s : State) : Outcome := randomRgba 180 230 s

end Sys2Proof.Machine
end

