-- ==== Sys2Proof/Machine/Dispatch.lean ====
section
/-! DEFINITION. One arm for each command: its meaning (30_encoding.md R113, R119). -/

namespace Sys2Proof.Machine

def exec (i : Instr) (s : State) : Host.Outcome State Fault Refusal :=
  match i with
  | .packRgb => Sys2Proof.Machine.execPackRgb s
  | .packRgba => Sys2Proof.Machine.execPackRgba s
  | .unpackRgb => Sys2Proof.Machine.execUnpackRgb s
  | .unpackRgba => Sys2Proof.Machine.execUnpackRgba s
  | .hex2num => Sys2Proof.Machine.execHex2num s
  | .hex2numFast => Sys2Proof.Machine.execHex2numFast s
  | .num2hex6 => Sys2Proof.Machine.execNum2hex6 s
  | .num2hex8 => Sys2Proof.Machine.execNum2hex8 s
  | .isHex => Sys2Proof.Machine.execIsHex s
  | .hex2rgb => Sys2Proof.Machine.execHex2rgb s
  | .hex2rgba => Sys2Proof.Machine.execHex2rgba s
  | .rgb2hex => Sys2Proof.Machine.execRgb2hex s
  | .rgba2hex => Sys2Proof.Machine.execRgba2hex s
  | .hsv2rgb => Sys2Proof.Machine.execHsv2rgb s
  | .rgb2hsv => Sys2Proof.Machine.execRgb2hsv s
  | .palEven => Sys2Proof.Machine.execPalEven s
  | .palGolden => Sys2Proof.Machine.execPalGolden s
  | .randRange => Sys2Proof.Machine.execRandRange s
  | .randRgb => Sys2Proof.Machine.execRandRgb s
  | .randRgba => Sys2Proof.Machine.execRandRgba s
  | .randBrightRgb => Sys2Proof.Machine.execRandBrightRgb s
  | .randPastelRgb => Sys2Proof.Machine.execRandPastelRgb s
  | .randBrightRgba => Sys2Proof.Machine.execRandBrightRgba s
  | .randPastelRgba => Sys2Proof.Machine.execRandPastelRgba s

end Sys2Proof.Machine
end

