-- ==== Sys2Proof/Machine/Agents.lean ====
section
/-! DEFINITION. What each agent does in its turn: the engine, the random source, the reset pin and the host
(60_exceptions.md R301, R311; 70_reset_and_hazards.md R320, R330). -/

namespace Sys2Proof.Machine

/-- The engine's turn: nothing while rst_n is low or the engine is Idle; otherwise the command word in flight is decoded
and runs, or completes with ILLEGAL_COMMAND (R117, R119, R282, R330). -/
def engineTurn (s : State) : Outcome :=
  if s.rstN then
    match s.engine with
    | .idle => .next s
    | .busy w _ _ =>
      match decode s.cfg w with
      | .command i => exec i s
      | .illegal _ => raise .illegalCommand s
  else .next s

/-- The random source presents a word. It is taken only when a request is outstanding, by the command in flight, and it
ends that request: one word for each `Draw()` (R15, R301). Otherwise the block takes nothing (log 4). -/
def wordPresented (u : Word) (s : State) : State :=
  match s.engine with
  | .idle => s
  | .busy w ops drawn =>
    if s.rngReq && s.rstN then { s with engine := .busy w ops (drawn ++ [u]), rngReq := false } else s

/-- The reset pin takes a level. Low: every register to its reset value, a command in flight abandoned, no bus answer
(R320). High: the reset is released (R321). -/
def resetPin (level : Bool) (s : State) : State :=
  if level then { s with rstN := true } else { resetRegisters s with rstN := false, resp := none }

/-- The event at the head of the coming ones happens. -/
def takeInput (i : Input) (s : State) : Outcome :=
  match i with
  | .bus a => .next (busAccess a s)
  | .engine => engineTurn s
  | .rng u => .next (wordPresented u s)
  | .rstN level => .next (resetPin level s)

/-- The state in which `w` has just been accepted as a command and the engine has the next turn. Nothing pending is lost;
with no event pending the engine has the turn anyway (log 11). -/
def launch (w : Word) (s : State) : State :=
  { acceptCommand w { s with engine := .idle, rngReq := false, rstN := true } with
    inputs := match s.inputs with
      | [] => []
      | pending => .engine :: pending }

end Sys2Proof.Machine
end

