-- ==== Sys2Proof/Machine/Step.lean ====
section
/-! DEFINITION. One step of the machine: the next event of the outside world, or the engine's turn when none is left. -/

namespace Sys2Proof.Machine

/-- One step (60_exceptions.md R291, R311): the oldest coming event happens, and with none left the engine has its turn
(70_reset_and_hazards.md R335; log 3). -/
def step (s : State) : Outcome :=
  match s.inputs with
  | [] => engineTurn s
  | i :: rest => takeInput i { s with inputs := rest }

/-- The state in which the very next step runs the command word `w` (its bits from `nbits` on are 0): as an accepted CMD
write leaves it (10_state.md R35; log 11). -/
def State.withFetchWord (s : State) (nbits w : Nat) : State := launch (BitVec.ofNat 32 (w % 2 ^ nbits)) s

end Sys2Proof.Machine
end

