-- ==== Sys2Proof/Machine/Driver.lean ====
section
/-! DEFINITION. The host program notation (30_encoding.md R121 to R124), beside the machine: a program of the host agent,
whose accesses reach the block one at a time. The block has no program counter; this one is the host's (R30; log 14). -/

namespace Sys2Proof.Machine

/-- A host temporary tN. R121 sets no bound on N; the model has t0 to t127, more than any expansion below uses (log 14). -/
abbrev Temp := Fin 128

/-- A value a statement writes: a number or a host temporary (R121). -/
inductive Src where
  | imm (v : Word)
  | tmp (t : Temp)
  deriving DecidableEq, Repr

/-- A statement of the host notation; a label is the index of its statement (R121). -/
inductive Stmt where
  | wr (off : Offset) (v : Src)
  | rd (t : Temp) (off : Offset)
  | cmd (i : Instr)
  | wait
  | and (t u : Temp) (v : Word)
  | bnez (t : Temp) (target : Nat)
  | beqz (t : Temp) (target : Nat)
  deriving DecidableEq, Repr

/-- A host program in execution: its statements, the index of the next one, and the temporaries. -/
structure Driver where
  code : List Stmt
  pc   : Nat
  tmp  : Vector Word 128
  deriving DecidableEq, Repr

/-- The value of a source. -/
def Src.value (tmp : Vector Word 128) : Src → Word
  | .imm v => v
  | .tmp t => tmp[t]

/-- The bus transaction of a statement: `wr`, `rd`, `cmd` and one read of STATUS for `wait`; `and`, `bnez` and `beqz` are
the host's own (R122). -/
def Stmt.access (tmp : Vector Word 128) : Stmt → Option BusAccess
  | .wr off v => some (.write off 0b1111 (v.value tmp))
  | .rd _ off => some (.read off 0b1111)
  | .cmd i => some (.write Reg.cmd.offset 0b1111 (encode i))
  | .wait => some (.read Reg.status.offset 0b1111)
  | .and _ _ _ => none
  | .bnez _ _ => none
  | .beqz _ _ => none

/-- The data word of an answer; a write's answer and a missing one have none. -/
def Response.word (r : Response) : Word := r.data.getD 0

/-- The host's program after a statement, given the answer to its access if it made one (R121). -/
def Driver.advance (d : Driver) (answer : Option Response) : Stmt → Driver
  | .wr _ _ => { d with pc := d.pc + 1 }
  | .cmd _ => { d with pc := d.pc + 1 }
  | .rd t _ => { d with pc := d.pc + 1, tmp := d.tmp.set t ((answer.map Response.word).getD 0) }
  | .wait =>
    let v := (answer.map Response.word).getD 0
    { d with pc := if v.getLsbD 0 then d.pc else d.pc + 1, tmp := d.tmp.set 7 v }
  | .and t u v => { d with pc := d.pc + 1, tmp := d.tmp.set t (d.tmp[u] &&& v) }
  | .bnez t target => { d with pc := if d.tmp[t] = 0 then d.pc + 1 else target }
  | .beqz t target => { d with pc := if d.tmp[t] = 0 then target else d.pc + 1 }

/-- The host's turn: the next statement of its program makes its access, and the program goes on with the answer. An
access that is not serviced (rst_n low) leaves the program where it is (R320); a finished program does nothing. -/
def hostTurn (d : Driver) (s : State) : Driver × State :=
  match d.code[d.pc]? with
  | none => (d, s)
  | some st =>
    match st.access d.tmp with
    | none => (d.advance none st, s)
    | some a =>
      let s' := busAccess a s
      match s'.resp with
      | none => (d, s')
      | some r => (d.advance (some r) st, s')

/-- The arguments a source function is called with: numbers, or the code units of a string (R123). -/
inductive CallArgs where
  | numbers (args : List Word)
  | text (units : List Byte)
  deriving DecidableEq, Repr

/-- The numbers into ARG0, ARG1, ... in the order of R114 (R123). -/
def loadNumbers (args : List Word) : List Stmt :=
  (args.zip [Reg.arg 0, Reg.arg 1, Reg.arg 2, Reg.arg 3]).map fun p => .wr p.2.offset (.imm p.1)

/-- Word i of a string as STRBUF(i) holds it, unit 4i in the lowest byte lane, 0 where the string has ended
(10_state.md R40, 20_memory.md R88). -/
def textWord (units : List Byte) (i : Fin 4) : Word :=
  units.getD (4 * i.val + 3) 0 ++ units.getD (4 * i.val + 2) 0 ++ units.getD (4 * i.val + 1) 0 ++ units.getD (4 * i.val) 0

/-- The string into STRBUF0 to STRBUF3 and its length into STRLEN (R123). STRLEN holds at most 255, and every length above 16
says 'too long' (10_state.md R37), so a longer string is announced as 255 (log 14). -/
def loadText (units : List Byte) : List Stmt :=
  ([0, 1, 2, 3].map fun i => .wr (Reg.strbuf i).offset (.imm (textWord units i)))
    ++ [.wr Reg.strlen.offset (.imm (BitVec.ofNat 32 (min units.length 255)))]

/-- The statements that put the arguments in place (R123). -/
def CallArgs.load : CallArgs → List Stmt
  | .numbers args => loadNumbers args
  | .text units => loadText units

/-- The palette count among the arguments: the first number, signed (R114, 43_palette.md R230). -/
def CallArgs.count : CallArgs → Nat
  | .numbers (n :: _) => n.toInt.toNat
  | .numbers [] => 0
  | .text _ => 0

/-- The registers that show a command's outputs, in the order of R115; the palette's as far as the map reaches. -/
def outputRegs (count : Nat) : Instr → List Reg
  | .packRgb | .packRgba | .hex2numFast | .isHex => [.res 0]
  | .randRange | .randRgb | .randRgba | .randBrightRgb | .randPastelRgb | .randBrightRgba | .randPastelRgba => [.res 0]
  | .hex2num => [.res 0, .res 1]
  | .unpackRgb | .hex2rgb | .hsv2rgb | .rgb2hsv => [.res 0, .res 1, .res 2]
  | .unpackRgba | .hex2rgba => [.res 0, .res 1, .res 2, .res 3]
  | .num2hex6 | .num2hex8 | .rgb2hex | .rgba2hex => [.strlen, .strbuf 0, .strbuf 1, .strbuf 2, .strbuf 3]
  | .palEven | .palGolden => ((List.range (min count 64)).map fun k => .pal (Fin.ofNat 64 k)) ++ [.palcnt]

/-- Reads of registers into t1, t2, ... in their order (R123). -/
def readRegs (rs : List Reg) : List Stmt :=
  (rs.zipIdx 1).map fun p => .rd (Fin.ofNat 128 p.2) p.1.offset

/-- The host sequence of a source function: the arguments, the command, `wait`, STATUS into t0, and the outputs into t1 and
on (R123). -/
def callStmts (i : Instr) (args : CallArgs) : List Stmt :=
  args.load ++ [.cmd i, .wait, .rd 0 Reg.status.offset] ++ readRegs (outputRegs args.count i)

/-- The check the host makes before it uses an output of a call: t0[2], which is STATUS.ERR (R123). -/
def callFailed (tmp : Vector Word 128) : Bool := tmp[0].getLsbD 2

/-- The statements of a wrapper variant: a random command, an unpack or an encode of its RES0, and the
reads of what that leaves (R124). -/
def wrapperStmts (gen post : Instr) : List Stmt :=
  [.cmd gen, .wait, .rd 0 (Reg.res 0).offset, .wr (Reg.arg 0).offset (.tmp 0), .cmd post, .wait]
    ++ readRegs (outputRegs 0 post)

/-- RAND_RGB_OBJ, RAND_BRIGHT_RGB_OBJ and RAND_PASTEL_RGB_OBJ, by their random command (R124). -/
def rgbObjectStmts (gen : Instr) : List Stmt := wrapperStmts gen .unpackRgb

/-- RAND_RGB_HEX and its bright and pastel forms (R124). -/
def rgbHexStmts (gen : Instr) : List Stmt := wrapperStmts gen .num2hex6

/-- RAND_RGBA_OBJ and its bright and pastel forms (R124). -/
def rgbaObjectStmts (gen : Instr) : List Stmt := wrapperStmts gen .unpackRgba

/-- RAND_RGBA_HEX and its bright and pastel forms (R124). -/
def rgbaHexStmts (gen : Instr) : List Stmt := wrapperStmts gen .num2hex8

end Sys2Proof.Machine
end

