-- ==== Sys2Proof/Safety.lean ====
section
/-! DEFINITION. What a good state and a completed command are, in the terms the statements use: the number of draws of each
command, the error each command raises, the invariant of the block, and the frames of a completion. -/

namespace Sys2Proof

open Machine

/-- 'draws: n', the random words a command consumes on the success path (30_encoding.md R114). -/
def Instr.draws : Instr → Nat
  | .palGolden | .randRange | .randRgb | .randRgba => 1
  | .randBrightRgb | .randPastelRgb => 3
  | .randBrightRgba | .randPastelRgba => 4
  | .packRgb | .packRgba | .unpackRgb | .unpackRgba | .hex2num | .hex2numFast | .num2hex6 | .num2hex8
  | .isHex | .hex2rgb | .hex2rgba | .rgb2hex | .rgba2hex | .hsv2rgb | .rgb2hsv | .palEven => 0

/-- Some channel among ARG0 .. ARG(n-1) exceeds 255 (60_exceptions.md R284). -/
abbrev Machine.Operands.channelTooBig (o : Operands) (n : Nat) : Prop := ∃ i : Fin 4, i.val < n ∧ 255 < o.args[i].toNat

/-- The string is malformed for a decoder that accepts the body lengths `lengths` (R283): longer than the buffer, of another
body length, or with a body byte that is no hex digit. -/
abbrev Machine.Operands.malformed (o : Operands) (lengths : List Nat) : Prop :=
  16 < o.strlen.toNat ∨ (stringBody o.text).length ∉ lengths ∨ ∃ c ∈ stringBody o.text, 15 < digitValue c

/-- The palette count is not in 1..PAL_MAX (R285, 43_palette.md R230). -/
abbrev Machine.Operands.badCount (o : Operands) (b : Build) : Prop :=
  o.args[0].toInt ≤ 0 ∨ (b.palMax : Int) < o.args[0].toInt

/-- The error a command raises on its operands, `none` for success (R281, R283 to R285, R289). -/
def commandError (b : Build) (i : Instr) (o : Operands) : ErrCode :=
  match i with
  | .packRgb | .rgb2hex | .rgb2hsv => if o.channelTooBig 3 then .outOfRange else .none
  | .packRgba | .rgba2hex => if o.channelTooBig 4 then .outOfRange else .none
  | .hex2num => if o.malformed [1, 2, 3, 4, 5, 6, 7, 8, 9, 10, 11, 12, 13] then .invalidFormat else .none
  | .hex2numFast => if o.malformed [1, 2, 3, 4, 5, 6, 7] then .invalidFormat else .none
  | .hex2rgb => if o.malformed [3, 4, 6] then .invalidFormat else .none
  | .hex2rgba => if o.malformed [3, 4, 6, 8] then .invalidFormat else .none
  | .palEven | .palGolden => if o.badCount b then .invalidArgument else .none
  | .randRange => if o.args[1].toNat < o.args[0].toNat then .invalidArgument else .none
  | .unpackRgb | .unpackRgba | .num2hex6 | .num2hex8 | .isHex | .hsv2rgb | .randRgb | .randRgba
  | .randBrightRgb | .randPastelRgb | .randBrightRgba | .randPastelRgba => .none

/-- BUSY = 1 implies DONE = 0, ERR = 0 and ERRCODE = 0, and ERR says whether ERRCODE is nonzero (10_state.md R34). -/
abbrev Machine.State.flagsOk (s : State) : Prop :=
  (s.busy = true → s.done = false ∧ s.err = false ∧ s.errcode = .none) ∧ (s.err = true ↔ s.errcode ≠ .none)

/-- A word is drawn or asked for only by a legal command that raises no error and still has a draw to make (R96, R290). -/
def drawsOk (b : Build) (w : Word) (o : Operands) (drawn : List Word) (req : Bool) : Bool :=
  match decode b w with
  | .illegal _ => drawn.isEmpty && !req
  | .command i =>
    if commandError b i o = .none then decide (drawn.length + req.toNat ≤ i.draws) else drawn.isEmpty && !req

/-- Idle: no request is outstanding. Busy: CMD and the live operand registers are what the engine holds (R42), and the
draws are in order. -/
def Machine.State.engineOk (s : State) : Bool :=
  match s.engine with
  | .idle => !s.rngReq
  | .busy w ops drawn => decide (w = s.cmd ∧ ops = s.live) && drawsOk s.cfg w ops drawn s.rngReq

/-- PALCNT is at most PAL_MAX, and the entries the build does not have stay 0 (R36, R41; log 7). -/
abbrev Machine.State.paletteOk (s : State) : Prop :=
  s.palcnt.toNat ≤ s.cfg.palMax ∧ ∀ k : Fin 64, s.cfg.palMax ≤ k.val → s.pal[k] = 0

/-- While rst_n is low every register holds its reset value and no access has an answer (R320). -/
abbrev Machine.State.resetOk (s : State) : Prop := s.rstN = false → resetRegisters s = s ∧ s.resp = none

/-- The invariant of the block. -/
abbrev Inv (s : State) : Prop := s.flagsOk ∧ s.engineOk = true ∧ s.paletteOk ∧ s.resetOk

/-- What no command's completion changes: the build, IRQ_EN, OVR, CMD, ARG0 to ARG3, the reset pin, the last bus answer and
the coming events (R38, R115, R330). -/
structure SameOutside (s t : State) : Prop where
  cfg    : t.cfg = s.cfg
  irqEn  : t.irqEn = s.irqEn
  ovr    : t.ovr = s.ovr
  cmd    : t.cmd = s.cmd
  args   : t.args = s.args
  rstN   : t.rstN = s.rstN
  resp   : t.resp = s.resp
  inputs : t.inputs = s.inputs

/-- The STATUS side of a completion without error, and all that no completion changes (R330). -/
structure Succeeded (s t : State) : Prop where
  engine  : t.engine = .idle
  rngReq  : t.rngReq = false
  done    : t.done = true
  err     : t.err = false
  errcode : t.errcode = .none
  outside : SameOutside s t

/-- STRLEN and the string buffer are unchanged. -/
structure SameText (s t : State) : Prop where
  strlen : t.strlen = s.strlen
  str    : t.str = s.str

/-- The palette buffer and PALCNT are unchanged. -/
structure SamePalette (s t : State) : Prop where
  pal    : t.pal = s.pal
  palcnt : t.palcnt = s.palcnt

/-- The state after a command that raised `c`: the state before it but for BUSY, DONE, ERR and ERRCODE, and no request
outstanding (60_exceptions.md R280). -/
def failedWith (c : ErrCode) (s : State) : State :=
  { s with engine := .idle, rngReq := false, done := true, err := true, errcode := c }

end Sys2Proof
end

