-- ==== Sys2Proof/Certificates/Slice0/Obligations.lean ====
section
/-! DEFINITION. The statements for the provers, with the few terms they are written in. Each docstring names the rules of
spec/ it formalises. -/

namespace Sys2Proof.Claims

open Sys2Proof.Machine

/-- The opcode map as 30_encoding.md R113 lists it. -/
def opcodeMap : List (Nat × Instr) :=
  [(0x10, .packRgb), (0x11, .packRgba), (0x12, .unpackRgb), (0x13, .unpackRgba)] ++
  [(0x20, .hex2num), (0x21, .hex2numFast), (0x22, .num2hex6), (0x23, .num2hex8), (0x24, .isHex), (0x25, .hex2rgb),
    (0x26, .hex2rgba), (0x27, .rgb2hex), (0x28, .rgba2hex)] ++
  [(0x30, .hsv2rgb), (0x31, .rgb2hsv), (0x40, .palEven), (0x41, .palGolden)] ++
  [(0x50, .randRange), (0x51, .randRgb), (0x52, .randRgba), (0x53, .randBrightRgb), (0x54, .randPastelRgb),
    (0x55, .randBrightRgba), (0x56, .randPastelRgba)]

/-- The opcodes R113 assigns, as ranges. -/
abbrev assigned (n : Nat) : Prop :=
  (0x10 ≤ n ∧ n ≤ 0x13) ∨ (0x20 ≤ n ∧ n ≤ 0x28) ∨ (0x30 ≤ n ∧ n ≤ 0x31) ∨ (0x40 ≤ n ∧ n ≤ 0x41) ∨ (0x50 ≤ n ∧ n ≤ 0x56)

/-- The result registers a command names (R115). -/
def resultRegisters : Instr → List (Fin 4)
  | .packRgb | .packRgba | .hex2numFast | .isHex => [0]
  | .randRange | .randRgb | .randRgba | .randBrightRgb | .randPastelRgb | .randBrightRgba | .randPastelRgba => [0]
  | .hex2num => [0, 1]
  | .unpackRgb | .hex2rgb | .hsv2rgb | .rgb2hsv => [0, 1, 2]
  | .unpackRgba | .hex2rgba => [0, 1, 2, 3]
  | .num2hex6 | .num2hex8 | .rgb2hex | .rgba2hex | .palEven | .palGolden => []

/-- The commands whose outputs are STRLEN and STR (R115). -/
def writesText : Instr → Bool
  | .num2hex6 | .num2hex8 | .rgb2hex | .rgba2hex => true
  | .packRgb | .packRgba | .unpackRgb | .unpackRgba | .hex2num | .hex2numFast | .isHex | .hex2rgb | .hex2rgba
  | .hsv2rgb | .rgb2hsv | .palEven | .palGolden | .randRange | .randRgb | .randRgba | .randBrightRgb | .randPastelRgb
  | .randBrightRgba | .randPastelRgba => false

/-- The commands whose outputs are PAL and PALCNT (R115). -/
def writesPalette : Instr → Bool
  | .palEven | .palGolden => true
  | .packRgb | .packRgba | .unpackRgb | .unpackRgba | .hex2num | .hex2numFast | .num2hex6 | .num2hex8 | .isHex
  | .hex2rgb | .hex2rgba | .rgb2hex | .rgba2hex | .hsv2rgb | .rgb2hsv | .randRange | .randRgb | .randRgba
  | .randBrightRgb | .randPastelRgb | .randBrightRgba | .randPastelRgba => false

/-- The ARG registers a command reads (R114). -/
def argumentsRead : Instr → List (Fin 4)
  | .packRgb | .rgb2hex | .hsv2rgb | .rgb2hsv => [0, 1, 2]
  | .packRgba | .rgba2hex => [0, 1, 2, 3]
  | .unpackRgb | .unpackRgba | .num2hex6 | .num2hex8 | .palEven | .palGolden => [0]
  | .randRange => [0, 1]
  | .hex2num | .hex2numFast | .isHex | .hex2rgb | .hex2rgba | .randRgb | .randRgba | .randBrightRgb | .randPastelRgb
  | .randBrightRgba | .randPastelRgba => []

/-- The commands that read the string (R114). -/
def readsText : Instr → Bool
  | .hex2num | .hex2numFast | .isHex | .hex2rgb | .hex2rgba => true
  | .packRgb | .packRgba | .unpackRgb | .unpackRgba | .num2hex6 | .num2hex8 | .rgb2hex | .rgba2hex | .hsv2rgb
  | .rgb2hsv | .palEven | .palGolden | .randRange | .randRgb | .randRgba | .randBrightRgb | .randPastelRgb
  | .randBrightRgba | .randPastelRgba => false

/-- Two operand sets agree on all the inputs of a command that R114 lists. Of the string, those are STRLEN and the bytes
below it (R161: 'The bytes STR[L..15] are never read'). -/
def sameInputs (i : Instr) (o o' : Operands) : Prop :=
  (∀ k ∈ argumentsRead i, o.args[k] = o'.args[k]) ∧
  (readsText i = true → o.strlen = o'.strlen ∧ ∀ j : Fin 16, j.val < o.strlen.toNat → o.str[j] = o'.str[j])

/-- The command completes without error from `s`. -/
def succeeds (i : Instr) (s : State) : Prop := ∃ t, exec i s = .next t ∧ Succeeded s t

/-- The codes of the hex digits: '0' to '9', 'A' to 'F', 'a' to 'f' (R16, R160). -/
abbrev hexDigitCode (c : Byte) : Prop :=
  (0x30 ≤ c.toNat ∧ c.toNat ≤ 0x39) ∨ (0x41 ≤ c.toNat ∧ c.toNat ≤ 0x46) ∨ (0x61 ≤ c.toNat ∧ c.toNat ≤ 0x66)

/-- ISHEX answers 1. -/
def isHexAnswersOne (s : State) : Prop := ∃ t, exec .isHex s = .next t ∧ t.res[0] = 1

/-- The number a body of hex digits denotes, most significant digit first (R163). -/
def bodyValue (o : Operands) : Nat := Nat.ofDigits 16 ((stringBody o.text).map digitValue).reverse

/-- Rounding a rational to the nearest integer, a half going up (00_scope.md R13, R200). -/
def nearest (x : ℚ) : ℤ := ⌊x + 1 / 2⌋

/-- The source's HSV-to-RGB formulas over the rationals (42_hsv.md R201, R202): hue h in degrees, s and v in 0..1; chroma
c = v·s, x = c·(1 - |(h/60 mod 2) - 1|), m = v - c, the triple by the 60-degree sector, each value scaled by 255 and rounded. -/
def hsvToRgb (h s v : ℚ) : ℤ × ℤ × ℤ :=
  let c := v * s
  let x := c * (1 - |(h / 60 - 2 * ⌊h / 120⌋) - 1|)
  let m := v - c
  let chan := fun y : ℚ => nearest (255 * (y + m))
  match ⌊h / 60⌋ with
  | 0 => (chan c, chan x, chan 0)
  | 1 => (chan x, chan c, chan 0)
  | 2 => (chan 0, chan c, chan x)
  | 3 => (chan 0, chan x, chan c)
  | 4 => (chan x, chan 0, chan c)
  | _ => (chan c, chan 0, chan x)

/-- A packed RGB number of three channels (R87). -/
def packed (t : ℤ × ℤ × ℤ) : ℤ := t.1 * 65536 + t.2.1 * 256 + t.2.2

/-- The rational RGB-to-HSV formulas (R204): value = max/255, saturation = (max - min)/max, hue by the piece of the maximum
channel in sixths of a turn; each scaled and rounded. -/
def rgbToHsv (r g b : ℕ) : ℤ × ℤ × ℤ :=
  let mx := max r (max g b)
  let mn := min r (min g b)
  let d : ℚ := mx - mn
  let hue : ℚ :=
    if mx = mn then 0
    else if mx = r then ((g : ℚ) - b) / d + if g < b then 6 else 0
    else if mx = g then ((b : ℚ) - r) / d + 2
    else ((r : ℚ) - g) / d + 4
  (nearest (hue / 6 * 360), if mx = 0 then 0 else nearest (d / mx * 100), nearest ((mx : ℚ) / 255 * 100))

/-- The three result registers RES0 to RES2 as integers. -/
def resTriple (t : State) : ℤ × ℤ × ℤ := (t.res[0].toNat, t.res[1].toNat, t.res[2].toNat)

/-- The character of a hex digit, from the source's table "0123456789abcdef" (R169). -/
def hexCharacter (n : Nat) : Nat := ("0123456789abcdef".toList.getD n ' ').toNat

/-- STRLEN and the string buffer hold '#', the k low hex digits of num with the most significant first, and zeros (R169 to
R172). -/
def holdsHex (t : State) (k num : Nat) : Prop :=
  t.strlen.toNat = k + 1 ∧ t.str[0].toNat = 0x23 ∧
  ∀ j : Fin 16, 1 ≤ j.val → t.str[j].toNat = if j.val ≤ k then hexCharacter (num / 16 ^ (k - j.val) % 16) else 0

/-- The lowercase form of a hex digit's code unit: 'A' to 'F' are 0x41 to 0x46 and 'a' to 'f' are 0x61 to 0x66 (R16). -/
def lowercase (c : Byte) : Byte := if 0x41 ≤ c.toNat ∧ c.toNat ≤ 0x46 then c + 0x20 else c

/-- A legal write of CTRL with SRST = 1. -/
def softReset : BusAccess → Bool
  | .read _ _ => false
  | .write off be v => off == 0x008 && be == 0b1111 && v.getLsbD 1

/-- The event resets the registers: a soft reset or the reset pin going low. -/
def resets : Input → Bool
  | .bus a => softReset a
  | .rstN level => !level
  | .engine | .rng _ => false

/-- The engine has the next turn: no event is left, or the oldest one is the engine's. -/
def engineIsNext (s : State) : Prop := s.inputs = [] ∨ ∃ rest, s.inputs = .engine :: rest

/-- A word of the random source or a reset. -/
def wordOrReset : Input → Bool
  | .rng _ => true
  | i => resets i

end Sys2Proof.Claims

open Sys2Proof Sys2Proof.Machine Sys2Proof.Claims

/- ## Encoding -/

/-- R113, R119: the words that decode to commands, number by number; the random opcodes only when RANDGEN = 1. -/
def Obligations.CommandWordsAreTheOpcodeMap : Prop :=
  ∀ (b : Build) (w : Word) (i : Instr),
    decode b w = .command i ↔ (w.toNat, i) ∈ opcodeMap ∧ (w.toNat < 0x50 ∨ b.randgen = true)

/-- R113, R118: decode and encode agree on every word of every build, in both directions: a command of the build decodes
from its own encoding, and no other word decodes to it. -/
def Obligations.DecodeInvertsEncode : Prop :=
  ∀ (b : Build) (w : Word) (i : Instr), decode b w = .command i ↔ i.wf b = true ∧ w = encode i

/-- R117: which words are illegal, by reason. -/
def Obligations.IllegalWordsByReason : Prop :=
  ∀ (b : Build) (w : Word),
    (decode b w = .illegal .reservedBits ↔ w.toNat / 256 ≠ 0) ∧
    (decode b w = .illegal .unassignedOpcode ↔ w.toNat / 256 = 0 ∧ ¬assigned w.toNat) ∧
    (decode b w = .illegal .randomUnitAbsent ↔ 0x50 ≤ w.toNat ∧ w.toNat ≤ 0x56 ∧ b.randgen = false)

/-- R113: a word of each family, written out from the map, decodes to its command. -/
def Obligations.SampleWordsDecode : Prop :=
  decode Build.standard 0x00000010 = .command .packRgb ∧ decode Build.standard 0x00000028 = .command .rgba2hex ∧
  decode Build.standard 0x00000031 = .command .rgb2hsv ∧ decode Build.standard 0x00000041 = .command .palGolden ∧
  decode Build.standard 0x00000056 = .command .randPastelRgba

/- ## The step -/

/-- R110, R311: with the command word of `i` in flight and rst_n released, the engine's turn is `exec i`; the model's step
only removes the event (log 3). -/
def Obligations.StepRunsTheCommandInFlight : Prop :=
  ∀ (s : State) (w : Word) (ops : Operands) (drawn : List Word) (i : Instr),
    s.engine = .busy w ops drawn → s.rstN = true → decode s.cfg w = .command i →
    (s.inputs = [] → step s = exec i s) ∧
    (∀ rest, s.inputs = .engine :: rest → step s = exec i { s with inputs := rest })

/-- Log 11 (the model's choice): placing a word runs it: the next step from `withFetchWord` is the command on the state an
accepted CMD write of that word leaves (R35). -/
def Obligations.PlacedWordRunsNext : Prop :=
  ∀ (s : State) (w : Word) (i : Instr), decode s.cfg w = .command i →
    step (s.withFetchWord 32 w.toNat)
      = exec i { s with cmd := w, engine := .busy w s.live [], done := false, err := false, errcode := .none,
                        rngReq := false, rstN := true }

/-- R117, R282: an illegal word in flight completes with ILLEGAL_COMMAND and nothing else. -/
def Obligations.IllegalCommandCompletesWithCodeOne : Prop :=
  ∀ (s : State) (w : Word) (ops : Operands) (drawn : List Word) (why : Illegal),
    s.engine = .busy w ops drawn → s.rstN = true → decode s.cfg w = .illegal why →
    (s.inputs = [] → step s = .next (failedWith .illegalCommand s)) ∧
    (∀ rest, s.inputs = .engine :: rest → step s = .next (failedWith .illegalCommand { s with inputs := rest }))

/-- Log 9 (the model's reading of R280, R286): no step stops, whatever the state. -/
def Obligations.EveryStepHasANextState : Prop := ∀ s : State, ∃ t, step s = .next t

/-- The invariant of the block (R34, R36, R42, R96, R290, R320) is kept by every step.
What it says of palette entries the build does not have is the model's choice (log 7), and so is the handshake (log 4). -/
def Obligations.EveryStepKeepsTheInvariant : Prop := ∀ s t : State, Inv s → step s = .next t → Inv t

/-- The reset state meets the invariant. -/
def Obligations.ResetMeetsTheInvariant : Prop := Inv State.reset

/-- R32: the build that CFG reports is fixed: no step changes it, every legal read of CFG gives PAL_MAX in bits 7 to 0,
RANDGEN in bit 8 and 0 above, and a write of CFG is ignored. -/
def Obligations.BuildIsFixed : Prop :=
  (∀ s t : State, step s = .next t → t.cfg = s.cfg) ∧
  ∀ s : State, s.rstN = true → 1 ≤ s.cfg.palMax ∧ s.cfg.palMax ≤ 64 ∧
    ∃ v : Word, (busAccess (.read 0x004 0b1111) s).resp = some ⟨.okay, some v⟩ ∧
      v.toNat = s.cfg.palMax + 256 * s.cfg.randgen.toNat ∧
      ∀ x : Word, busAccess (.write 0x004 0b1111 x) s = { s with resp := some ⟨.okay, none⟩ }

/- ## Every command -/

/-- R330, R281: a command that does not wait for a word completes: Idle, DONE, the error code its operands call for, ERR as
that code says, and nothing outside the outputs and STATUS changed. -/
def Obligations.CompletionWritesStatus : Prop :=
  ∀ (i : Instr) (s : State), commandError s.cfg i s.ops ≠ .none ∨ i.draws ≤ s.drawn.length →
    ∃ t, exec i s = .next t ∧ t.engine = .idle ∧ t.rngReq = false ∧ t.done = true ∧
      t.errcode = commandError s.cfg i s.ops ∧ (t.err = true ↔ commandError s.cfg i s.ops ≠ .none) ∧ SameOutside s t

/-- R280, R283, R284, R285: a command whose operands call for an error completes with its code and changes nothing else, and
it does so whether or not a word was drawn (R290). -/
def Obligations.ErrorsArePrecise : Prop :=
  ∀ (i : Instr) (s : State), commandError s.cfg i s.ops ≠ .none →
    exec i s = .next (failedWith (commandError s.cfg i s.ops) s)

/-- R301, R335: a command that lacks a word asks for one and stays in flight; nothing else changes.
That the request is one turn of the engine is the model's reading (log 4). -/
def Obligations.CommandWaitsForItsWords : Prop :=
  ∀ (i : Instr) (s : State), commandError s.cfg i s.ops = .none → s.drawn.length < i.draws →
    exec i s = .next { s with rngReq := true }

/-- R115, the half that says what is left alone: the result registers a command does not name, the string buffer unless it is
an encoder, the palette unless it is a generator. -/
def Obligations.OutputsNotNamedAreUnchanged : Prop :=
  ∀ (i : Instr) (s t : State), exec i s = .next t →
    (∀ k : Fin 4, k ∉ resultRegisters i → t.res[k] = s.res[k]) ∧
    (writesText i = false → SameText s t) ∧ (writesPalette i = false → SamePalette s t)

/-- R114: a command reads its listed inputs, the build and its draws, and nothing else: two states that agree on them give the
same error and the same outputs. -/
def Obligations.CommandsReadOnlyTheirInputs : Prop :=
  ∀ (i : Instr) (s s' t t' : State),
    s.cfg = s'.cfg → sameInputs i s.ops s'.ops → s.drawn = s'.drawn → i.draws ≤ s.drawn.length →
    commandError s.cfg i s.ops = .none → exec i s = .next t → exec i s' = .next t' →
    commandError s'.cfg i s'.ops = .none ∧
    (∀ k ∈ resultRegisters i, t.res[k] = t'.res[k]) ∧
    (writesText i = true → t.strlen = t'.strlen ∧ t.str = t'.str) ∧
    (writesPalette i = true → t.palcnt = t'.palcnt ∧ ∀ k : Fin 64, k.val < t.palcnt.toNat → t.pal[k] = t'.pal[k])

/- ## Packing -/

/-- R141: PACK_RGB. -/
def Obligations.PackRgbPacksThreeChannels : Prop :=
  encode .packRgb = 0x00000010 ∧
  ∀ s : State,
    (s.ops.args[0].toNat ≤ 255 → s.ops.args[1].toNat ≤ 255 → s.ops.args[2].toNat ≤ 255 →
      ∃ t, exec .packRgb s = .next t ∧ Succeeded s t ∧
        t.res[0].toNat = s.ops.args[0].toNat * 65536 + s.ops.args[1].toNat * 256 + s.ops.args[2].toNat ∧
        (∀ k : Fin 4, k ≠ 0 → t.res[k] = s.res[k]) ∧ SameText s t ∧ SamePalette s t) ∧
    (255 < s.ops.args[0].toNat ∨ 255 < s.ops.args[1].toNat ∨ 255 < s.ops.args[2].toNat →
      exec .packRgb s = .next (failedWith .outOfRange s))

/-- R142: PACK_RGBA, unsigned over all 32 bits. -/
def Obligations.PackRgbaPacksFourChannels : Prop :=
  encode .packRgba = 0x00000011 ∧
  ∀ s : State,
    ((∀ k : Fin 4, s.ops.args[k].toNat ≤ 255) →
      ∃ t, exec .packRgba s = .next t ∧ Succeeded s t ∧
        t.res[0].toNat = s.ops.args[0].toNat * 16777216 + s.ops.args[1].toNat * 65536 + s.ops.args[2].toNat * 256
          + s.ops.args[3].toNat ∧
        (∀ k : Fin 4, k ≠ 0 → t.res[k] = s.res[k]) ∧ SameText s t ∧ SamePalette s t) ∧
    ((∃ k : Fin 4, 255 < s.ops.args[k].toNat) → exec .packRgba s = .next (failedWith .outOfRange s))

/-- R143, R144: UNPACK_RGB by shift and mask, bits 31 to 24 ignored; UNPACK_RGBA by mask and unsigned shift. -/
def Obligations.UnpackSplitsTheChannels : Prop :=
  encode .unpackRgb = 0x00000012 ∧ encode .unpackRgba = 0x00000013 ∧
  ∀ s : State,
    (∃ t, exec .unpackRgb s = .next t ∧ Succeeded s t ∧
      t.res[0] = (s.ops.args[0] >>> 16) &&& 0xFF ∧ t.res[1] = (s.ops.args[0] >>> 8) &&& 0xFF ∧
      t.res[2] = s.ops.args[0] &&& 0xFF ∧ t.res[3] = s.res[3] ∧ SameText s t ∧ SamePalette s t) ∧
    (∃ t, exec .unpackRgba s = .next t ∧ Succeeded s t ∧
      t.res[0] = (s.ops.args[0] &&& 0xFF000000) >>> 24 ∧ t.res[1] = (s.ops.args[0] &&& 0x00FF0000) >>> 16 ∧
      t.res[2] = (s.ops.args[0] &&& 0x0000FF00) >>> 8 ∧ t.res[3] = s.ops.args[0] &&& 0x000000FF ∧
      SameText s t ∧ SamePalette s t)

/-- R146: packing and unpacking undo each other, in both directions and both widths. -/
def Obligations.PackingIsBijective : Prop :=
  ∀ s t u v : State,
    (exec .packRgb s = .next t → t.err = false → u.ops.args[0] = t.res[0] → exec .unpackRgb u = .next v →
      v.res[0] = s.ops.args[0] ∧ v.res[1] = s.ops.args[1] ∧ v.res[2] = s.ops.args[2]) ∧
    (exec .packRgba s = .next t → t.err = false → u.ops.args[0] = t.res[0] → exec .unpackRgba u = .next v →
      ∀ k : Fin 4, v.res[k] = s.ops.args[k]) ∧
    (exec .unpackRgb s = .next t → s.ops.args[0].toNat < 2 ^ 24 → u.ops.args[0] = t.res[0] → u.ops.args[1] = t.res[1] →
      u.ops.args[2] = t.res[2] → exec .packRgb u = .next v → v.err = false ∧ v.res[0] = s.ops.args[0]) ∧
    (exec .unpackRgba s = .next t → u.ops.args = t.res → exec .packRgba u = .next v →
      v.err = false ∧ v.res[0] = s.ops.args[0])

/- ## Hex codec -/

/-- R164: HEX2NUM, the exact value of 1 to 13 digits in RES1 and RES0.
The character codes are ASCII, which the spec takes from general knowledge (log 10). -/
def Obligations.Hex2numFoldsUpToThirteenDigits : Prop :=
  ∀ s : State,
    (¬s.ops.malformed [1, 2, 3, 4, 5, 6, 7, 8, 9, 10, 11, 12, 13] →
      ∃ t, exec .hex2num s = .next t ∧ Succeeded s t ∧ t.res[1].toNat * 2 ^ 32 + t.res[0].toNat = bodyValue s.ops ∧
        t.res[1].toNat < 2 ^ 20 ∧ t.res[2] = s.res[2] ∧ t.res[3] = s.res[3] ∧ SameText s t ∧ SamePalette s t) ∧
    (s.ops.malformed [1, 2, 3, 4, 5, 6, 7, 8, 9, 10, 11, 12, 13] →
      exec .hex2num s = .next (failedWith .invalidFormat s))

/-- R165, R163: HEX2NUM_FAST, equal to the safe value for 1 to 7 digits.
The character codes are ASCII, which the spec takes from general knowledge (log 10). -/
def Obligations.Hex2numFastFoldsUpToSevenDigits : Prop :=
  ∀ s : State,
    (¬s.ops.malformed [1, 2, 3, 4, 5, 6, 7] →
      ∃ t, exec .hex2numFast s = .next t ∧ Succeeded s t ∧ t.res[0].toNat = bodyValue s.ops ∧ bodyValue s.ops < 2 ^ 28 ∧
        (∀ k : Fin 4, k ≠ 0 → t.res[k] = s.res[k]) ∧ SameText s t ∧ SamePalette s t) ∧
    (s.ops.malformed [1, 2, 3, 4, 5, 6, 7] → exec .hex2numFast s = .next (failedWith .invalidFormat s))

/-- R160: the value of a hex digit by its code, and 16 for every code that is no hex digit. R166: ISHEX always completes,
with 1 exactly for '#' and 3, 4, 6 or 8 hex digits, told by their codes.
The character codes are ASCII, which the spec takes from general knowledge (log 10). -/
def Obligations.IsHexValidatesTheShape : Prop :=
  (∀ c : Byte,
    (0x30 ≤ c.toNat ∧ c.toNat ≤ 0x39 → digitValue c = c.toNat - 0x30) ∧
    (0x41 ≤ c.toNat ∧ c.toNat ≤ 0x46 → digitValue c = c.toNat - 0x37) ∧
    (0x61 ≤ c.toNat ∧ c.toNat ≤ 0x66 → digitValue c = c.toNat - 0x57) ∧
    (¬hexDigitCode c → digitValue c = 16)) ∧
  ∀ s : State, ∃ t, exec .isHex s = .next t ∧ Succeeded s t ∧
    (let len := s.ops.strlen.toNat
     let ok := len ≤ 16 ∧ 1 ≤ len ∧ s.ops.str[0] = 0x23 ∧ (len - 1 = 3 ∨ len - 1 = 4 ∨ len - 1 = 6 ∨ len - 1 = 8) ∧
       ∀ j : Fin 16, 1 ≤ j.val → j.val < len → hexDigitCode s.ops.str[j]
     (ok → t.res[0] = 1) ∧ (¬ok → t.res[0] = 0)) ∧
    (∀ k : Fin 4, k ≠ 0 → t.res[k] = s.res[k]) ∧ SameText s t ∧ SamePalette s t

/-- R167, R175: HEX2RGB reads a body of 3, 4 or 6 digits as one number, with no shorthand expansion.
The character codes are ASCII, which the spec takes from general knowledge (log 10). -/
def Obligations.Hex2rgbReadsOneNumber : Prop :=
  ∀ s : State,
    (¬s.ops.malformed [3, 4, 6] →
      ∃ t, exec .hex2rgb s = .next t ∧ Succeeded s t ∧ bodyValue s.ops < 2 ^ 24 ∧
        t.res[0].toNat = bodyValue s.ops / 2 ^ 16 ∧ t.res[1].toNat = bodyValue s.ops / 2 ^ 8 % 256 ∧
        t.res[2].toNat = bodyValue s.ops % 256 ∧ t.res[3] = s.res[3] ∧ SameText s t ∧ SamePalette s t) ∧
    (s.ops.malformed [3, 4, 6] → exec .hex2rgb s = .next (failedWith .invalidFormat s))

/-- R168, R175: HEX2RGBA reads a body of 3, 4, 6 or 8 digits as one number.
The character codes are ASCII, which the spec takes from general knowledge (log 10). -/
def Obligations.Hex2rgbaReadsOneNumber : Prop :=
  ∀ s : State,
    (¬s.ops.malformed [3, 4, 6, 8] →
      ∃ t, exec .hex2rgba s = .next t ∧ Succeeded s t ∧ bodyValue s.ops < 2 ^ 32 ∧
        t.res[0].toNat = bodyValue s.ops / 2 ^ 24 ∧ t.res[1].toNat = bodyValue s.ops / 2 ^ 16 % 256 ∧
        t.res[2].toNat = bodyValue s.ops / 2 ^ 8 % 256 ∧ t.res[3].toNat = bodyValue s.ops % 256 ∧
        SameText s t ∧ SamePalette s t) ∧
    (s.ops.malformed [3, 4, 6, 8] → exec .hex2rgba s = .next (failedWith .invalidFormat s))

/-- R171, R172, R170: NUM2HEX6 and NUM2HEX8 write their text and fill the buffer with zeros.
The character codes are ASCII, which the spec takes from general knowledge (log 10). -/
def Obligations.NumberEncodersWriteTheirText : Prop :=
  ∀ s : State,
    (∃ t, exec .num2hex6 s = .next t ∧ Succeeded s t ∧ holdsHex t 6 s.ops.args[0].toNat ∧ t.res = s.res ∧
      SamePalette s t) ∧
    (∃ t, exec .num2hex8 s = .next t ∧ Succeeded s t ∧ holdsHex t 8 s.ops.args[0].toNat ∧ t.res = s.res ∧
      SamePalette s t)

/-- R173, R174: RGB2HEX and RGBA2HEX encode the packed number of their channels, and reject a channel above 255.
The character codes are ASCII, which the spec takes from general knowledge (log 10). -/
def Obligations.ChannelEncodersWriteTheirText : Prop :=
  ∀ s : State,
    (s.ops.args[0].toNat ≤ 255 → s.ops.args[1].toNat ≤ 255 → s.ops.args[2].toNat ≤ 255 →
      ∃ t, exec .rgb2hex s = .next t ∧ Succeeded s t ∧ t.res = s.res ∧ SamePalette s t ∧
        holdsHex t 6 (s.ops.args[0].toNat * 65536 + s.ops.args[1].toNat * 256 + s.ops.args[2].toNat)) ∧
    (255 < s.ops.args[0].toNat ∨ 255 < s.ops.args[1].toNat ∨ 255 < s.ops.args[2].toNat →
      exec .rgb2hex s = .next (failedWith .outOfRange s)) ∧
    ((∀ k : Fin 4, s.ops.args[k].toNat ≤ 255) →
      ∃ t, exec .rgba2hex s = .next t ∧ Succeeded s t ∧ t.res = s.res ∧ SamePalette s t ∧
        holdsHex t 8 (s.ops.args[0].toNat * 16777216 + s.ops.args[1].toNat * 65536 + s.ops.args[2].toNat * 256
          + s.ops.args[3].toNat)) ∧
    ((∃ k : Fin 4, 255 < s.ops.args[k].toNat) → exec .rgba2hex s = .next (failedWith .outOfRange s))

/-- R176, second half: NUM2HEX8 and then HEX2NUM of the string it left returns the number, for every 32-bit number.
The character codes are ASCII, which the spec takes from general knowledge (log 10). -/
def Obligations.Num2hex8ThenHex2numReturnsTheNumber : Prop :=
  ∀ s t u v : State,
    exec .num2hex8 s = .next t → u.ops.strlen = t.strlen → u.ops.str = t.str → exec .hex2num u = .next v →
    v.err = false ∧ v.res[0] = s.ops.args[0] ∧ v.res[1] = 0

/-- R176, first half: a valid 6-digit string, with or without '#', decoded by HEX2NUM, by HEX2NUM_FAST, or by HEX2RGB and
PACK_RGB, and encoded again by NUM2HEX6 is '#' and its digits in lowercase.
The character codes are ASCII, which the spec takes from general knowledge (log 10). -/
def Obligations.SixDigitStringsNormalise : Prop :=
  ∀ s t p q u v : State, (stringBody s.ops.text).length = 6 → s.ops.strlen.toNat ≤ 16 →
    (∀ c ∈ stringBody s.ops.text, digitValue c ≤ 15) → exec .num2hex6 u = .next v →
    ((exec .hex2num s = .next t ∧ u.ops.args[0] = t.res[0]) ∨ (exec .hex2numFast s = .next t ∧ u.ops.args[0] = t.res[0]) ∨
      (exec .hex2rgb s = .next t ∧ (∀ k : Fin 4, k.val < 3 → p.ops.args[k] = t.res[k]) ∧ exec .packRgb p = .next q ∧
        u.ops.args[0] = q.res[0])) →
    v.err = false ∧ v.strlen = 7 ∧ v.str.toList.take 7 = 0x23 :: (stringBody s.ops.text).map lowercase

/-- R177: how ISHEX and the decoders agree.
The character codes are ASCII, which the spec takes from general knowledge (log 10). -/
def Obligations.IsHexAndTheDecodersAgree : Prop :=
  ∀ s : State,
    (isHexAnswersOne s → succeeds .hex2num s) ∧ (isHexAnswersOne s → succeeds .hex2rgba s) ∧
    (isHexAnswersOne s → (succeeds .hex2rgb s ↔ (stringBody s.ops.text).length ∈ [3, 4, 6])) ∧
    (s.ops.strlen.toNat ≤ 16 → s.ops.text.head? = some 0x23 → (succeeds .hex2rgba s ↔ isHexAnswersOne s)) ∧
    ((succeeds .hex2rgb s ∨ succeeds .hex2rgba s) → ¬isHexAnswersOne s → s.ops.text.head? ≠ some 0x23)

/- ## HSV -/

/-- R203, R201, R202, R200: HSV2RGB always completes, with the source's formulas computed exactly and rounded once.
The sector table is one the spec takes from general knowledge (log 10). -/
def Obligations.Hsv2rgbRoundsTheExactFormulas : Prop :=
  ∀ s : State, ∃ t, exec .hsv2rgb s = .next t ∧ Succeeded s t ∧
    resTriple t = hsvToRgb ((s.ops.args[0].toInt % 360 : ℤ) : ℚ)
      ((min (max s.ops.args[1].toInt 0) 100 : ℤ) / 100) ((min (max s.ops.args[2].toInt 0) 100 : ℤ) / 100) ∧
    t.res[3] = s.res[3] ∧ SameText s t ∧ SamePalette s t

/-- R205, R204: RGB2HSV, the formulas computed exactly and rounded once, and OUT_OF_RANGE above 255.
The hue pieces are ones the spec takes from general knowledge (log 10). -/
def Obligations.Rgb2hsvRoundsTheExactFormulas : Prop :=
  ∀ s : State,
    (s.ops.args[0].toNat ≤ 255 → s.ops.args[1].toNat ≤ 255 → s.ops.args[2].toNat ≤ 255 →
      ∃ t, exec .rgb2hsv s = .next t ∧ Succeeded s t ∧
        resTriple t = rgbToHsv s.ops.args[0].toNat s.ops.args[1].toNat s.ops.args[2].toNat ∧
        t.res[3] = s.res[3] ∧ SameText s t ∧ SamePalette s t) ∧
    (255 < s.ops.args[0].toNat ∨ 255 < s.ops.args[1].toNat ∨ 255 < s.ops.args[2].toNat →
      exec .rgb2hsv s = .next (failedWith .outOfRange s))

/-- R201, R205: the ranges of the converters' results; the hue of (255, 0, 1) is 360 (90_conflicts.md C8).
The ranges hold of the tables and pieces of log 10. -/
def Obligations.HsvResultsStayInRange : Prop :=
  ∀ s t : State,
    (exec .hsv2rgb s = .next t → t.res[0].toNat ≤ 255 ∧ t.res[1].toNat ≤ 255 ∧ t.res[2].toNat ≤ 255) ∧
    (exec .rgb2hsv s = .next t → t.err = false →
      t.res[0].toNat ≤ 360 ∧ t.res[1].toNat ≤ 100 ∧ t.res[2].toNat ≤ 100) ∧
    (s.ops.args[0] = 255 → s.ops.args[1] = 0 → s.ops.args[2] = 1 →
      ∃ u, exec .rgb2hsv s = .next u ∧ u.err = false ∧ u.res[0].toNat = 360)

/- ## Palette generators -/

/-- R231, R230: PAL_EVEN, hue k·360/count degrees exactly, saturation 80, value 60; INVALID_ARGUMENT outside 1..PAL_MAX.
The sector table is one the spec takes from general knowledge (log 10). -/
def Obligations.PalEvenSweepsTheHue : Prop :=
  ∀ s : State,
    (¬s.ops.badCount s.cfg → ∃ t, exec .palEven s = .next t ∧ Succeeded s t ∧
      (t.palcnt.toNat : ℤ) = s.ops.args[0].toInt ∧
      (∀ k : Fin 64, k.val < t.palcnt.toNat →
        (t.pal[k].toNat : ℤ) = packed (hsvToRgb (k.val * 360 / s.ops.args[0].toInt) (80 / 100) (60 / 100))) ∧
      (∀ k : Fin 64, t.palcnt.toNat ≤ k.val → t.pal[k] = s.pal[k]) ∧ t.res = s.res ∧ SameText s t) ∧
    (s.ops.badCount s.cfg → exec .palEven s = .next (failedWith .invalidArgument s))

/-- R233, R232, R230: PAL_GOLDEN from the start phase u: phase u + k·0x9E3779B9 modulo 2^32, saturation 70, value 65; the
count is checked before the draw.
The sector table and the step constant are ones the spec takes from general knowledge (log 10). -/
def Obligations.PalGoldenStepsByTheGoldenRatio : Prop :=
  ∀ s : State,
    (¬s.ops.badCount s.cfg → ∀ (u : Word) (more : List Word), s.drawn = u :: more →
      ∃ t, exec .palGolden s = .next t ∧ Succeeded s t ∧
        (t.palcnt.toNat : ℤ) = s.ops.args[0].toInt ∧
        (∀ k : Fin 64, k.val < t.palcnt.toNat →
          (t.pal[k].toNat : ℤ) = packed (hsvToRgb
            (((u.toNat + k.val * 0x9E3779B9) % 2 ^ 32 : ℕ) * 360 / 2 ^ 32) (70 / 100) (65 / 100))) ∧
        (∀ k : Fin 64, t.palcnt.toNat ≤ k.val → t.pal[k] = s.pal[k]) ∧ t.res = s.res ∧ SameText s t) ∧
    (s.ops.badCount s.cfg → exec .palGolden s = .next (failedWith .invalidArgument s))

/-- R236: for count 8, RGB2HSV of each PAL_EVEN entry returns the hue 45·k, saturation 80 and value 60.
The sector table is one the spec takes from general knowledge (log 10). -/
def Obligations.EvenPaletteOfEightRecoversItsHues : Prop :=
  ∀ (s t u v : State) (k : Fin 64),
    s.ops.args[0] = 8 → s.cfg.palMax ≥ 8 → exec .palEven s = .next t → k.val < 8 →
    u.ops.args[0] = (t.pal[k] >>> 16).setWidth 32 &&& 0xFF → u.ops.args[1] = (t.pal[k] >>> 8).setWidth 32 &&& 0xFF →
    u.ops.args[2] = t.pal[k].setWidth 32 &&& 0xFF → exec .rgb2hsv u = .next v →
    v.err = false ∧ v.res[0].toNat = 45 * k.val ∧ v.res[1].toNat = 80 ∧ v.res[2].toNat = 60

/- ## Random generators -/

/-- R251, R250: RAND_RANGE maps its draw into min..max, reaching both ends, and rejects min > max before any draw. -/
def Obligations.RandRangeMapsItsDraw : Prop :=
  encode .randRange = 0x00000050 ∧
  ∀ s : State,
    (s.ops.args[0].toNat ≤ s.ops.args[1].toNat → ∀ (u : Word) (more : List Word), s.drawn = u :: more →
      ∃ t, exec .randRange s = .next t ∧ Succeeded s t ∧
        t.res[0].toNat = s.ops.args[0].toNat
          + u.toNat * (s.ops.args[1].toNat - s.ops.args[0].toNat + 1) / 2 ^ 32 ∧
        (u = 0 → t.res[0] = s.ops.args[0]) ∧ (u = 0xFFFFFFFF → t.res[0] = s.ops.args[1]) ∧
        (∀ k : Fin 4, k ≠ 0 → t.res[k] = s.res[k]) ∧ SameText s t ∧ SamePalette s t) ∧
    (s.ops.args[1].toNat < s.ops.args[0].toNat → exec .randRange s = .next (failedWith .invalidArgument s))

/-- R252, R253: RAND_RGB is the draw's upper 24 bits, RAND_RGBA the draw itself. -/
def Obligations.RandRgbAndRgbaTakeTheDraw : Prop :=
  encode .randRgb = 0x00000051 ∧ encode .randRgba = 0x00000052 ∧
  ∀ (s : State) (u : Word) (more : List Word), s.drawn = u :: more →
    (∃ t, exec .randRgb s = .next t ∧ Succeeded s t ∧ t.res[0] = u >>> 8 ∧
      (∀ k : Fin 4, k ≠ 0 → t.res[k] = s.res[k]) ∧ SameText s t ∧ SamePalette s t) ∧
    (∃ t, exec .randRgba s = .next t ∧ Succeeded s t ∧ t.res[0] = u ∧
      (∀ k : Fin 4, k ≠ 0 → t.res[k] = s.res[k]) ∧ SameText s t ∧ SamePalette s t)

/-- R254, R255: the bright and pastel RGB generators, draws in the order r, g, b. -/
def Obligations.BrightAndPastelRgbTakeThreeDraws : Prop :=
  encode .randBrightRgb = 0x00000053 ∧ encode .randPastelRgb = 0x00000054 ∧
  ∀ (s : State) (ur ug ub : Word) (more : List Word), s.drawn = ur :: ug :: ub :: more →
    (∃ t, exec .randBrightRgb s = .next t ∧ Succeeded s t ∧
      t.res[0].toNat = (128 + ur.toNat / 2 ^ 25) * 65536 + (128 + ug.toNat / 2 ^ 25) * 256 + (128 + ub.toNat / 2 ^ 25) ∧
      (∀ k : Fin 4, k ≠ 0 → t.res[k] = s.res[k]) ∧ SameText s t ∧ SamePalette s t) ∧
    (∃ t, exec .randPastelRgb s = .next t ∧ Succeeded s t ∧
      t.res[0].toNat = (180 + ur.toNat * 51 / 2 ^ 32) * 65536 + (180 + ug.toNat * 51 / 2 ^ 32) * 256
        + (180 + ub.toNat * 51 / 2 ^ 32) ∧
      (∀ k : Fin 4, k ≠ 0 → t.res[k] = s.res[k]) ∧ SameText s t ∧ SamePalette s t)

/-- R256, R257: the bright and pastel RGBA generators, draws in the order r, g, b, a. -/
def Obligations.BrightAndPastelRgbaTakeFourDraws : Prop :=
  encode .randBrightRgba = 0x00000055 ∧ encode .randPastelRgba = 0x00000056 ∧
  ∀ (s : State) (ur ug ub ua : Word) (more : List Word), s.drawn = ur :: ug :: ub :: ua :: more →
    (∃ t, exec .randBrightRgba s = .next t ∧ Succeeded s t ∧
      t.res[0].toNat = (128 + ur.toNat / 2 ^ 25) * 16777216 + (128 + ug.toNat / 2 ^ 25) * 65536
        + (128 + ub.toNat / 2 ^ 25) * 256 + (128 + ua.toNat / 2 ^ 25) ∧
      (∀ k : Fin 4, k ≠ 0 → t.res[k] = s.res[k]) ∧ SameText s t ∧ SamePalette s t) ∧
    (∃ t, exec .randPastelRgba s = .next t ∧ Succeeded s t ∧
      t.res[0].toNat = (180 + ur.toNat * 51 / 2 ^ 32) * 16777216 + (180 + ug.toNat * 51 / 2 ^ 32) * 65536
        + (180 + ub.toNat * 51 / 2 ^ 32) * 256 + (180 + ua.toNat * 51 / 2 ^ 32) ∧
      (∀ k : Fin 4, k ≠ 0 → t.res[k] = s.res[k]) ∧ SameText s t ∧ SamePalette s t)

/-- R258: for every sequence of draws a random result lies in its documented range, channel by channel. Each command is
held to its own number of draws (R114), below which it waits. -/
def Obligations.RandomResultsStayInRange : Prop :=
  ∀ s t : State,
    (Instr.randRgb.draws ≤ s.drawn.length → exec .randRgb s = .next t → t.res[0].toNat < 2 ^ 24) ∧
    (Instr.randBrightRgb.draws ≤ s.drawn.length → exec .randBrightRgb s = .next t → t.res[0].toNat < 2 ^ 24 ∧
      ∀ j < 3, 128 ≤ t.res[0].toNat / 256 ^ j % 256 ∧ t.res[0].toNat / 256 ^ j % 256 ≤ 255) ∧
    (Instr.randBrightRgba.draws ≤ s.drawn.length → exec .randBrightRgba s = .next t →
      ∀ j < 4, 128 ≤ t.res[0].toNat / 256 ^ j % 256 ∧ t.res[0].toNat / 256 ^ j % 256 ≤ 255) ∧
    (Instr.randPastelRgb.draws ≤ s.drawn.length → exec .randPastelRgb s = .next t → t.res[0].toNat < 2 ^ 24 ∧
      ∀ j < 3, 180 ≤ t.res[0].toNat / 256 ^ j % 256 ∧ t.res[0].toNat / 256 ^ j % 256 ≤ 230) ∧
    (Instr.randPastelRgba.draws ≤ s.drawn.length → exec .randPastelRgba s = .next t →
      ∀ j < 4, 180 ≤ t.res[0].toNat / 256 ^ j % 256 ∧ t.res[0].toNat / 256 ^ j % 256 ≤ 230) ∧
    (Instr.randRange.draws ≤ s.drawn.length → exec .randRange s = .next t → t.err = false →
      s.ops.args[0].toNat ≤ t.res[0].toNat ∧ t.res[0].toNat ≤ s.ops.args[1].toNat)

/-- R301: a presented word is taken only while a request is outstanding, by the command in flight, and ends that request; at
any other moment it changes nothing.
That an unasked word changes nothing is the model's reading (log 4). -/
def Obligations.WordIsTakenOnlyOnRequest : Prop :=
  ∀ (s : State) (u : Word) (rest : List Input), s.inputs = .rng u :: rest →
    (∀ w ops drawn, s.engine = .busy w ops drawn → s.rngReq = true → s.rstN = true →
      step s = .next { s with engine := .busy w ops (drawn ++ [u]), rngReq := false, inputs := rest }) ∧
    (s.engine = .idle ∨ s.rngReq = false ∨ s.rstN = false → step s = .next { s with inputs := rest })

/-- R335, I18: with the source silent and no reset, a command that lacks a word stays in flight for any number of steps, and
nothing of its outputs appears.
Events are taken one at a time (log 3), the handshake is that of log 4. -/
def Obligations.SilentSourceKeepsTheCommandInFlight : Prop :=
  ∀ (n : Nat) (s t : State) (w : Word) (ops : Operands) (drawn : List Word) (i : Instr),
    s.engine = .busy w ops drawn → s.rstN = true → decode s.cfg w = .command i → commandError s.cfg i ops = .none →
    drawn.length < i.draws → (∀ e ∈ s.inputs, wordOrReset e = false) → Sys2Proof.core.run n s = .next t →
    t.engine = s.engine ∧ t.res = s.res ∧ SameText s t ∧ SamePalette s t ∧ t.err = s.err ∧ (t.done = true → s.done = true)

/- ## Register window -/

/-- R91: no read changes a register; it only leaves its answer.
Where the answer is held is the model's choice (log 5). -/
def Obligations.ReadsHaveNoSideEffect : Prop :=
  ∀ (s : State) (off : Offset) (be : BitVec 4) (rest : List Input), s.inputs = .bus (.read off be) :: rest →
    ∃ r, step s = .next { s with resp := r, inputs := rest }

/-- R81, R82, R84: a narrow, a misaligned or a reserved access is answered ERROR, a read with data 0, and changes nothing. -/
def Obligations.IllegalAccessesAnswerError : Prop :=
  ∀ (s : State) (off : Offset) (be : BitVec 4) (v : Word), s.rstN = true →
    be ≠ 0b1111 ∨ off.toNat % 4 ≠ 0 ∨ off.toNat = 0x01C ∨ (0x050 ≤ off.toNat ∧ off.toNat ≤ 0x0FF) ∨
      0x100 + 4 * s.cfg.palMax ≤ off.toNat →
    busAccess (.read off be) s = { s with resp := some ⟨.error, some 0⟩ } ∧
    busAccess (.write off be v) s = { s with resp := some ⟨.error, none⟩ }

/-- R83: a write of a read-only register is answered OKAY and changes nothing, not even OVR while BUSY. -/
def Obligations.ReadOnlyWritesAreIgnored : Prop :=
  ∀ (s : State) (off : Offset) (v : Word), s.rstN = true → off.toNat % 4 = 0 →
    off.toNat = 0x000 ∨ off.toNat = 0x004 ∨ off.toNat = 0x014 ∨ (0x030 ≤ off.toNat ∧ off.toNat < 0x040) ∨
      (0x100 ≤ off.toNat ∧ off.toNat < 0x100 + 4 * s.cfg.palMax) →
    busAccess (.write off 0b1111 v) s = { s with resp := some ⟨.okay, none⟩ }

/-- The register map (10_state.md R31, R33 to R41, R45, R89): what a legal read of each offset answers. -/
def Obligations.ReadsReturnTheRegisterMap : Prop :=
  ∀ (s : State) (off : Offset), s.rstN = true → off.toNat % 4 = 0 →
    ∀ answer : Option Response, (busAccess (.read off 0b1111) s).resp = answer →
    (off = 0x000 → answer = some ⟨.okay, some 0x55430007⟩) ∧
    (off = 0x008 → answer = some ⟨.okay, some (if s.irqEn then 1 else 0)⟩) ∧
    (off = 0x00C → answer = some ⟨.okay, some (BitVec.ofNat 32 (s.busy.toNat + 2 * s.done.toNat + 4 * s.err.toNat
      + 8 * s.ovr.toNat + 16 * s.errcode.number.toNat))⟩) ∧
    (off = 0x010 → answer = some ⟨.okay, some s.cmd⟩) ∧
    (off = 0x014 → answer = some ⟨.okay, some (BitVec.ofNat 32 s.palcnt.toNat)⟩) ∧
    (off = 0x018 → answer = some ⟨.okay, some (BitVec.ofNat 32 s.strlen.toNat)⟩) ∧
    (∀ i : Fin 4, off.toNat = 0x020 + 4 * i.val → answer = some ⟨.okay, some s.args[i]⟩) ∧
    (∀ i : Fin 4, off.toNat = 0x030 + 4 * i.val → answer = some ⟨.okay, some s.res[i]⟩) ∧
    (∀ i : Fin 4, off.toNat = 0x040 + 4 * i.val → ∃ v : Word, answer = some ⟨.okay, some v⟩ ∧
      ∀ j : Fin 16, j.val / 4 = i.val → s.str[j] = v.extractLsb' (8 * (j.val % 4)) 8) ∧
    (∀ k : Fin 64, k.val < s.cfg.palMax → off.toNat = 0x100 + 4 * k.val →
      answer = some ⟨.okay, some (BitVec.ofNat 32 s.pal[k].toNat)⟩)

/-- R37, R38, R40, R88: while Idle, a write of ARG, STRLEN or STRBUF stores its value, by byte lanes in the string buffer,
and changes nothing else. -/
def Obligations.OperandWritesStoreWhileIdle : Prop :=
  ∀ (s : State) (v : Word), s.rstN = true → s.engine = .idle →
    (∀ i : Fin 4, busAccess (.write (BitVec.ofNat 9 (0x020 + 4 * i.val)) 0b1111 v) s
      = { s with args := s.args.set i v, resp := some ⟨.okay, none⟩ }) ∧
    busAccess (.write 0x018 0b1111 v) s
      = { s with strlen := BitVec.ofNat 8 (v.toNat % 256), resp := some ⟨.okay, none⟩ } ∧
    ∀ i : Fin 4, ∃ str, busAccess (.write (BitVec.ofNat 9 (0x040 + 4 * i.val)) 0b1111 v) s
        = { s with str := str, resp := some ⟨.okay, none⟩ } ∧
      ∀ j : Fin 16, (j.val / 4 = i.val → str[j].toNat = v.toNat / 256 ^ (j.val % 4) % 256) ∧
        (j.val / 4 ≠ i.val → str[j] = s.str[j])

/-- R287: a write of CMD, ARG, STRLEN or STRBUF while BUSY = 1 is dropped, answered OKAY, and sets OVR. -/
def Obligations.WritesWhileBusyAreDropped : Prop :=
  ∀ (s : State) (off : Offset) (v : Word), s.rstN = true → s.busy = true → off.toNat % 4 = 0 →
    off.toNat = 0x010 ∨ off.toNat = 0x018 ∨ (0x020 ≤ off.toNat ∧ off.toNat < 0x030) ∨
      (0x040 ≤ off.toNat ∧ off.toNat < 0x050) →
    busAccess (.write off 0b1111 v) s = { s with ovr := true, resp := some ⟨.okay, none⟩ }

/-- R35: a CMD write while Idle is accepted: the word is kept whole, the engine is busy with it and a snapshot of the
operands, DONE, ERR and ERRCODE are cleared; OVR and all else stay. A CMD write while BUSY sets OVR and changes nothing else.
A read returns the last accepted word, and the reset value is 0. -/
def Obligations.CmdWriteIsAcceptedWhileIdle : Prop :=
  State.reset.cmd = 0 ∧
  ∀ (s : State) (v : Word), s.rstN = true →
    (s.engine = .idle → busAccess (.write 0x010 0b1111 v) s
      = { s with cmd := v, engine := .busy v ⟨s.args, s.strlen, s.str⟩ [], done := false, err := false, errcode := .none,
                 resp := some ⟨.okay, none⟩ }) ∧
    (s.busy = true → busAccess (.write 0x010 0b1111 v) s = { s with ovr := true, resp := some ⟨.okay, none⟩ }) ∧
    (busAccess (.read 0x010 0b1111) s).resp = some ⟨.okay, some s.cmd⟩

/-- R322, R46: a legal write of CTRL with bit 1 set puts every register into the reset state in one step, whatever bit 0
says, and aborts a command in flight; with bit 1 clear only IRQ_EN takes bit 0 (R33). The build, the pin and the coming events
are no registers. -/
def Obligations.CtrlWriteResetsOrSetsTheEnable : Prop :=
  ∀ (s : State) (v : Word), s.rstN = true →
    (v.getLsbD 1 = true → ∃ t, busAccess (.write 0x008 0b1111 v) s = t ∧ t.irqEn = false ∧ t.engine = .idle ∧
      t.done = false ∧ t.err = false ∧ t.ovr = false ∧ t.errcode = .none ∧ t.cmd = 0 ∧ t.palcnt = 0 ∧ t.strlen = 0 ∧
      (∀ k : Fin 4, t.args[k] = 0 ∧ t.res[k] = 0) ∧ (∀ j : Fin 16, t.str[j] = 0) ∧ (∀ k : Fin 64, t.pal[k] = 0) ∧
      t.rngReq = false ∧ t.resp = some ⟨.okay, none⟩ ∧ t.cfg = s.cfg ∧ t.rstN = s.rstN ∧ t.inputs = s.inputs) ∧
    (v.getLsbD 1 = false → busAccess (.write 0x008 0b1111 v) s
      = { s with irqEn := v.getLsbD 0, resp := some ⟨.okay, none⟩ })

/-- R34: a write of STATUS clears DONE and OVR where its bits 1 and 3 are 1, and ignores every other bit, busy or not. -/
def Obligations.StatusWriteClearsDoneAndOvr : Prop :=
  ∀ (s : State) (v : Word), s.rstN = true →
    busAccess (.write 0x00C 0b1111 v) s
      = { s with done := if v.getLsbD 1 then false else s.done, ovr := if v.getLsbD 3 then false else s.ovr,
                 resp := some ⟨.okay, none⟩ }

/- ## The whole machine -/

/-- R34: only an accepted CMD write sets BUSY, only a completion sets DONE, ERR or a nonzero ERRCODE, and only a write that
BUSY guards sets OVR.
Whose turn a step is: log 3. -/
def Obligations.StatusBitsAreSetOnlyAsStated : Prop :=
  ∀ s t : State, step s = .next t →
    (s.busy = false → t.busy = true →
      ∃ v rest, s.inputs = .bus (.write 0x010 0b1111 v) :: rest ∧ s.rstN = true ∧ t.cmd = v ∧ t.engine = .busy v s.live []) ∧
    (s.done = false → t.done = true → s.busy = true ∧ t.busy = false ∧ engineIsNext s) ∧
    (s.err = false → t.err = true → s.busy = true ∧ t.busy = false ∧ engineIsNext s) ∧
    (t.errcode ≠ .none → t.errcode ≠ s.errcode → s.busy = true ∧ t.busy = false ∧ engineIsNext s) ∧
    (s.ovr = false → t.ovr = true → s.busy = true ∧ t.busy = true ∧
      ∃ off v rest, s.inputs = .bus (.write off 0b1111 v) :: rest ∧ (off.toNat = 0x010 ∨ off.toNat = 0x018 ∨
        (0x020 ≤ off.toNat ∧ off.toNat < 0x030) ∨ (0x040 ≤ off.toNat ∧ off.toNat < 0x050)))

/-- R300: the interrupt output rises only by a completion or by a CTRL write that sets IRQ_EN. -/
def Obligations.InterruptRisesOnlyAsStated : Prop :=
  ∀ s t : State, step s = .next t → s.irq = false → t.irq = true →
    (s.busy = true ∧ t.busy = false ∧ t.done = true ∧ engineIsNext s) ∨
    ∃ v rest, s.inputs = .bus (.write 0x008 0b1111 v) :: rest ∧ v.getLsbD 0 = true ∧ v.getLsbD 1 = false

/-- R39, R36, R41, R90, R332: RES, PAL and PALCNT change only at a completion or at a reset. -/
def Obligations.ResultsChangeOnlyAtCompletionOrReset : Prop :=
  ∀ s t : State, step s = .next t → ¬(t.res = s.res ∧ SamePalette s t) →
    (s.busy = true ∧ t.busy = false ∧ t.done = true ∧ t.err = false ∧ engineIsNext s) ∨
    ∃ e rest, s.inputs = e :: rest ∧ resets e = true

/-- R38, R42, R331: while a command is in flight no event but a reset or its completion changes the operand registers, CMD or
the engine's snapshot of them. -/
def Obligations.OperandsHoldWhileBusy : Prop :=
  ∀ (s t : State) (w : Word) (ops : Operands) (drawn : List Word), s.engine = .busy w ops drawn → step s = .next t →
    (∃ e rest, s.inputs = e :: rest ∧ resets e = true) ∨
    (t.args = s.args ∧ t.cmd = s.cmd ∧
      (t.engine = .idle ∨ SameText s t ∧ ∃ more, t.engine = .busy w ops (drawn ++ more)))

/-- R320: the reset pin going low puts every register at its reset value and abandons a command in flight; while it is low no
bus access is serviced and nothing but the pin's release has an effect.
Pin levels as events and the missing answer are the model's choice (log 13, log 5). -/
def Obligations.HardwareResetHoldsEverything : Prop :=
  ∀ (s : State) (e : Input) (rest : List Input), s.inputs = e :: rest →
    (e = .rstN false → step s = .next { State.reset with cfg := s.cfg, rstN := false, resp := none, inputs := rest }) ∧
    (s.rstN = false → e ≠ .rstN true → e ≠ .rstN false →
      ∃ r, step s = .next { s with resp := r, inputs := rest } ∧ ∀ a, e = .bus a → r = none) ∧
    (e = .rstN true → step s = .next { s with rstN := true, inputs := rest })

/-- R46, R31, R32: from the reset state every legal read answers 0 but those of ID and CFG, and irq is 0. -/
def Obligations.ResetReadsAreZero : Prop :=
  State.reset.irq = false ∧ State.reset.rngReq = false ∧ State.reset.engine = .idle ∧
  ∀ off : Offset, off.toNat % 4 = 0 → off.toNat ≠ 0x01C → ¬(0x050 ≤ off.toNat ∧ off.toNat ≤ 0x0FF) →
    (busAccess (.read off 0b1111) State.reset).resp = some ⟨.okay, some
      (if off = 0x000 then 0x55430007 else if off = 0x004 then 0x00000140 else 0)⟩

/- ## Around the block -/

/-- R8, R85: the window is the 512 bytes from BASE: every offset is reached at BASE + offset, and no other address reaches the
block. -/
def Obligations.WindowIsFiveHundredTwelveBytes : Prop :=
  (∀ off : Offset, windowOffset Config.base (addressOf off) = some off) ∧
  ∀ base addr : Nat, addr < base ∨ base + 512 ≤ addr → windowOffset base addr = none

/-- R121, R122: in the host notation `cmd M` is the CMD write of M's opcode, accepted while Idle, and `wait` reads STATUS and
goes on exactly when BUSY = 0.
The form of a host program is the model's choice (log 14). -/
def Obligations.HostStatementsMakeTheirTransactions : Prop :=
  ∀ (d : Driver) (s : State), s.rstN = true →
    (∀ i : Instr, d.code[d.pc]? = some (.cmd i) → s.engine = .idle →
      ∃ t, hostTurn d s = ({ d with pc := d.pc + 1 }, t) ∧ t.cmd.toNat = i.opcode.toNat ∧
        t.engine = .busy t.cmd s.live []) ∧
    (d.code[d.pc]? = some .wait →
      ∃ v : Word, hostTurn d s = ({ d with pc := if s.busy then d.pc else d.pc + 1, tmp := d.tmp.set 7 v },
        { s with resp := some ⟨.okay, some v⟩ }) ∧ v.getLsbD 0 = s.busy)
end

