-- ==== Sys2Proof/Laws/State.lean ====
section
/-! SUPPORT. One lemma for each field of State after each named update of it, true by rfl, so that no proof unfolds a record
update (00_scope.md R14, 70_reset_and_hazards.md R330). -/

namespace Sys2Proof.Machine

/-! ### flagsAtAcceptance -/

@[simp] theorem flagsAtAcceptance_cfg (s : State) : (flagsAtAcceptance s).cfg = s.cfg := rfl
@[simp] theorem flagsAtAcceptance_irqEn (s : State) : (flagsAtAcceptance s).irqEn = s.irqEn := rfl
@[simp] theorem flagsAtAcceptance_engine (s : State) : (flagsAtAcceptance s).engine = s.engine := rfl
@[simp] theorem flagsAtAcceptance_done (s : State) : (flagsAtAcceptance s).done = false := rfl
@[simp] theorem flagsAtAcceptance_err (s : State) : (flagsAtAcceptance s).err = false := rfl
@[simp] theorem flagsAtAcceptance_ovr (s : State) : (flagsAtAcceptance s).ovr = s.ovr := rfl
@[simp] theorem flagsAtAcceptance_errcode (s : State) : (flagsAtAcceptance s).errcode = .none := rfl
@[simp] theorem flagsAtAcceptance_cmd (s : State) : (flagsAtAcceptance s).cmd = s.cmd := rfl
@[simp] theorem flagsAtAcceptance_palcnt (s : State) : (flagsAtAcceptance s).palcnt = s.palcnt := rfl
@[simp] theorem flagsAtAcceptance_strlen (s : State) : (flagsAtAcceptance s).strlen = s.strlen := rfl
@[simp] theorem flagsAtAcceptance_args (s : State) : (flagsAtAcceptance s).args = s.args := rfl
@[simp] theorem flagsAtAcceptance_res (s : State) : (flagsAtAcceptance s).res = s.res := rfl
@[simp] theorem flagsAtAcceptance_str (s : State) : (flagsAtAcceptance s).str = s.str := rfl
@[simp] theorem flagsAtAcceptance_pal (s : State) : (flagsAtAcceptance s).pal = s.pal := rfl
@[simp] theorem flagsAtAcceptance_rngReq (s : State) : (flagsAtAcceptance s).rngReq = s.rngReq := rfl
@[simp] theorem flagsAtAcceptance_rstN (s : State) : (flagsAtAcceptance s).rstN = s.rstN := rfl
@[simp] theorem flagsAtAcceptance_resp (s : State) : (flagsAtAcceptance s).resp = s.resp := rfl
@[simp] theorem flagsAtAcceptance_inputs (s : State) : (flagsAtAcceptance s).inputs = s.inputs := rfl

/-! ### flagsAtCompletion -/

@[simp] theorem flagsAtCompletion_cfg (c : ErrCode) (s : State) : (flagsAtCompletion c s).cfg = s.cfg := rfl
@[simp] theorem flagsAtCompletion_irqEn (c : ErrCode) (s : State) : (flagsAtCompletion c s).irqEn = s.irqEn := rfl
@[simp] theorem flagsAtCompletion_engine (c : ErrCode) (s : State) : (flagsAtCompletion c s).engine = s.engine := rfl
@[simp] theorem flagsAtCompletion_done (c : ErrCode) (s : State) : (flagsAtCompletion c s).done = true := rfl
@[simp] theorem flagsAtCompletion_err (c : ErrCode) (s : State) : (flagsAtCompletion c s).err = decide (c ≠ .none) := rfl
@[simp] theorem flagsAtCompletion_ovr (c : ErrCode) (s : State) : (flagsAtCompletion c s).ovr = s.ovr := rfl
@[simp] theorem flagsAtCompletion_errcode (c : ErrCode) (s : State) : (flagsAtCompletion c s).errcode = c := rfl
@[simp] theorem flagsAtCompletion_cmd (c : ErrCode) (s : State) : (flagsAtCompletion c s).cmd = s.cmd := rfl
@[simp] theorem flagsAtCompletion_palcnt (c : ErrCode) (s : State) : (flagsAtCompletion c s).palcnt = s.palcnt := rfl
@[simp] theorem flagsAtCompletion_strlen (c : ErrCode) (s : State) : (flagsAtCompletion c s).strlen = s.strlen := rfl
@[simp] theorem flagsAtCompletion_args (c : ErrCode) (s : State) : (flagsAtCompletion c s).args = s.args := rfl
@[simp] theorem flagsAtCompletion_res (c : ErrCode) (s : State) : (flagsAtCompletion c s).res = s.res := rfl
@[simp] theorem flagsAtCompletion_str (c : ErrCode) (s : State) : (flagsAtCompletion c s).str = s.str := rfl
@[simp] theorem flagsAtCompletion_pal (c : ErrCode) (s : State) : (flagsAtCompletion c s).pal = s.pal := rfl
@[simp] theorem flagsAtCompletion_rngReq (c : ErrCode) (s : State) : (flagsAtCompletion c s).rngReq = s.rngReq := rfl
@[simp] theorem flagsAtCompletion_rstN (c : ErrCode) (s : State) : (flagsAtCompletion c s).rstN = s.rstN := rfl
@[simp] theorem flagsAtCompletion_resp (c : ErrCode) (s : State) : (flagsAtCompletion c s).resp = s.resp := rfl
@[simp] theorem flagsAtCompletion_inputs (c : ErrCode) (s : State) : (flagsAtCompletion c s).inputs = s.inputs := rfl

/-! ### writeStatus -/

@[simp] theorem writeStatus_cfg (v : Word) (s : State) : (writeStatus v s).cfg = s.cfg := rfl
@[simp] theorem writeStatus_irqEn (v : Word) (s : State) : (writeStatus v s).irqEn = s.irqEn := rfl
@[simp] theorem writeStatus_engine (v : Word) (s : State) : (writeStatus v s).engine = s.engine := rfl
@[simp] theorem writeStatus_done (v : Word) (s : State) : (writeStatus v s).done = (s.done && !v.getLsbD 1) := rfl
@[simp] theorem writeStatus_err (v : Word) (s : State) : (writeStatus v s).err = s.err := rfl
@[simp] theorem writeStatus_ovr (v : Word) (s : State) : (writeStatus v s).ovr = (s.ovr && !v.getLsbD 3) := rfl
@[simp] theorem writeStatus_errcode (v : Word) (s : State) : (writeStatus v s).errcode = s.errcode := rfl
@[simp] theorem writeStatus_cmd (v : Word) (s : State) : (writeStatus v s).cmd = s.cmd := rfl
@[simp] theorem writeStatus_palcnt (v : Word) (s : State) : (writeStatus v s).palcnt = s.palcnt := rfl
@[simp] theorem writeStatus_strlen (v : Word) (s : State) : (writeStatus v s).strlen = s.strlen := rfl
@[simp] theorem writeStatus_args (v : Word) (s : State) : (writeStatus v s).args = s.args := rfl
@[simp] theorem writeStatus_res (v : Word) (s : State) : (writeStatus v s).res = s.res := rfl
@[simp] theorem writeStatus_str (v : Word) (s : State) : (writeStatus v s).str = s.str := rfl
@[simp] theorem writeStatus_pal (v : Word) (s : State) : (writeStatus v s).pal = s.pal := rfl
@[simp] theorem writeStatus_rngReq (v : Word) (s : State) : (writeStatus v s).rngReq = s.rngReq := rfl
@[simp] theorem writeStatus_rstN (v : Word) (s : State) : (writeStatus v s).rstN = s.rstN := rfl
@[simp] theorem writeStatus_resp (v : Word) (s : State) : (writeStatus v s).resp = s.resp := rfl
@[simp] theorem writeStatus_inputs (v : Word) (s : State) : (writeStatus v s).inputs = s.inputs := rfl

/-! ### acceptCommand -/

@[simp] theorem acceptCommand_cfg (w : Word) (s : State) : (acceptCommand w s).cfg = s.cfg := rfl
@[simp] theorem acceptCommand_irqEn (w : Word) (s : State) : (acceptCommand w s).irqEn = s.irqEn := rfl
@[simp] theorem acceptCommand_engine (w : Word) (s : State) : (acceptCommand w s).engine = .busy w s.live [] := rfl
@[simp] theorem acceptCommand_done (w : Word) (s : State) : (acceptCommand w s).done = false := rfl
@[simp] theorem acceptCommand_err (w : Word) (s : State) : (acceptCommand w s).err = false := rfl
@[simp] theorem acceptCommand_ovr (w : Word) (s : State) : (acceptCommand w s).ovr = s.ovr := rfl
@[simp] theorem acceptCommand_errcode (w : Word) (s : State) : (acceptCommand w s).errcode = .none := rfl
@[simp] theorem acceptCommand_cmd (w : Word) (s : State) : (acceptCommand w s).cmd = w := rfl
@[simp] theorem acceptCommand_palcnt (w : Word) (s : State) : (acceptCommand w s).palcnt = s.palcnt := rfl
@[simp] theorem acceptCommand_strlen (w : Word) (s : State) : (acceptCommand w s).strlen = s.strlen := rfl
@[simp] theorem acceptCommand_args (w : Word) (s : State) : (acceptCommand w s).args = s.args := rfl
@[simp] theorem acceptCommand_res (w : Word) (s : State) : (acceptCommand w s).res = s.res := rfl
@[simp] theorem acceptCommand_str (w : Word) (s : State) : (acceptCommand w s).str = s.str := rfl
@[simp] theorem acceptCommand_pal (w : Word) (s : State) : (acceptCommand w s).pal = s.pal := rfl
@[simp] theorem acceptCommand_rngReq (w : Word) (s : State) : (acceptCommand w s).rngReq = s.rngReq := rfl
@[simp] theorem acceptCommand_rstN (w : Word) (s : State) : (acceptCommand w s).rstN = s.rstN := rfl
@[simp] theorem acceptCommand_resp (w : Word) (s : State) : (acceptCommand w s).resp = s.resp := rfl
@[simp] theorem acceptCommand_inputs (w : Word) (s : State) : (acceptCommand w s).inputs = s.inputs := rfl

/-! ### complete -/

@[simp] theorem complete_cfg (c : ErrCode) (s : State) : (complete c s).cfg = s.cfg := rfl
@[simp] theorem complete_irqEn (c : ErrCode) (s : State) : (complete c s).irqEn = s.irqEn := rfl
@[simp] theorem complete_engine (c : ErrCode) (s : State) : (complete c s).engine = .idle := rfl
@[simp] theorem complete_done (c : ErrCode) (s : State) : (complete c s).done = true := rfl
@[simp] theorem complete_err (c : ErrCode) (s : State) : (complete c s).err = decide (c ≠ .none) := rfl
@[simp] theorem complete_ovr (c : ErrCode) (s : State) : (complete c s).ovr = s.ovr := rfl
@[simp] theorem complete_errcode (c : ErrCode) (s : State) : (complete c s).errcode = c := rfl
@[simp] theorem complete_cmd (c : ErrCode) (s : State) : (complete c s).cmd = s.cmd := rfl
@[simp] theorem complete_palcnt (c : ErrCode) (s : State) : (complete c s).palcnt = s.palcnt := rfl
@[simp] theorem complete_strlen (c : ErrCode) (s : State) : (complete c s).strlen = s.strlen := rfl
@[simp] theorem complete_args (c : ErrCode) (s : State) : (complete c s).args = s.args := rfl
@[simp] theorem complete_res (c : ErrCode) (s : State) : (complete c s).res = s.res := rfl
@[simp] theorem complete_str (c : ErrCode) (s : State) : (complete c s).str = s.str := rfl
@[simp] theorem complete_pal (c : ErrCode) (s : State) : (complete c s).pal = s.pal := rfl
@[simp] theorem complete_rngReq (c : ErrCode) (s : State) : (complete c s).rngReq = false := rfl
@[simp] theorem complete_rstN (c : ErrCode) (s : State) : (complete c s).rstN = s.rstN := rfl
@[simp] theorem complete_resp (c : ErrCode) (s : State) : (complete c s).resp = s.resp := rfl
@[simp] theorem complete_inputs (c : ErrCode) (s : State) : (complete c s).inputs = s.inputs := rfl

/-! ### setRes -/

@[simp] theorem setRes_cfg (s : State) (i : Fin 4) (v : Nat) : (s.setRes i v).cfg = s.cfg := rfl
@[simp] theorem setRes_irqEn (s : State) (i : Fin 4) (v : Nat) : (s.setRes i v).irqEn = s.irqEn := rfl
@[simp] theorem setRes_engine (s : State) (i : Fin 4) (v : Nat) : (s.setRes i v).engine = s.engine := rfl
@[simp] theorem setRes_done (s : State) (i : Fin 4) (v : Nat) : (s.setRes i v).done = s.done := rfl
@[simp] theorem setRes_err (s : State) (i : Fin 4) (v : Nat) : (s.setRes i v).err = s.err := rfl
@[simp] theorem setRes_ovr (s : State) (i : Fin 4) (v : Nat) : (s.setRes i v).ovr = s.ovr := rfl
@[simp] theorem setRes_errcode (s : State) (i : Fin 4) (v : Nat) : (s.setRes i v).errcode = s.errcode := rfl
@[simp] theorem setRes_cmd (s : State) (i : Fin 4) (v : Nat) : (s.setRes i v).cmd = s.cmd := rfl
@[simp] theorem setRes_palcnt (s : State) (i : Fin 4) (v : Nat) : (s.setRes i v).palcnt = s.palcnt := rfl
@[simp] theorem setRes_strlen (s : State) (i : Fin 4) (v : Nat) : (s.setRes i v).strlen = s.strlen := rfl
@[simp] theorem setRes_args (s : State) (i : Fin 4) (v : Nat) : (s.setRes i v).args = s.args := rfl
@[simp] theorem setRes_res (s : State) (i : Fin 4) (v : Nat) : (s.setRes i v).res = s.res.set i (BitVec.ofNat 32 v) := rfl
@[simp] theorem setRes_str (s : State) (i : Fin 4) (v : Nat) : (s.setRes i v).str = s.str := rfl
@[simp] theorem setRes_pal (s : State) (i : Fin 4) (v : Nat) : (s.setRes i v).pal = s.pal := rfl
@[simp] theorem setRes_rngReq (s : State) (i : Fin 4) (v : Nat) : (s.setRes i v).rngReq = s.rngReq := rfl
@[simp] theorem setRes_rstN (s : State) (i : Fin 4) (v : Nat) : (s.setRes i v).rstN = s.rstN := rfl
@[simp] theorem setRes_resp (s : State) (i : Fin 4) (v : Nat) : (s.setRes i v).resp = s.resp := rfl
@[simp] theorem setRes_inputs (s : State) (i : Fin 4) (v : Nat) : (s.setRes i v).inputs = s.inputs := rfl

/-! ### writeBack -/

@[simp] theorem writeBack_cfg (s : State) (t : List Byte) : (s.writeBack t).cfg = s.cfg := rfl
@[simp] theorem writeBack_irqEn (s : State) (t : List Byte) : (s.writeBack t).irqEn = s.irqEn := rfl
@[simp] theorem writeBack_engine (s : State) (t : List Byte) : (s.writeBack t).engine = s.engine := rfl
@[simp] theorem writeBack_done (s : State) (t : List Byte) : (s.writeBack t).done = s.done := rfl
@[simp] theorem writeBack_err (s : State) (t : List Byte) : (s.writeBack t).err = s.err := rfl
@[simp] theorem writeBack_ovr (s : State) (t : List Byte) : (s.writeBack t).ovr = s.ovr := rfl
@[simp] theorem writeBack_errcode (s : State) (t : List Byte) : (s.writeBack t).errcode = s.errcode := rfl
@[simp] theorem writeBack_cmd (s : State) (t : List Byte) : (s.writeBack t).cmd = s.cmd := rfl
@[simp] theorem writeBack_palcnt (s : State) (t : List Byte) : (s.writeBack t).palcnt = s.palcnt := rfl
@[simp] theorem writeBack_strlen (s : State) (t : List Byte) : (s.writeBack t).strlen = BitVec.ofNat 8 t.length := rfl
@[simp] theorem writeBack_args (s : State) (t : List Byte) : (s.writeBack t).args = s.args := rfl
@[simp] theorem writeBack_res (s : State) (t : List Byte) : (s.writeBack t).res = s.res := rfl
@[simp] theorem writeBack_str (s : State) (t : List Byte) : (s.writeBack t).str = Vector.ofFn fun j : Fin 16 => t.getD j.val 0 := rfl
@[simp] theorem writeBack_pal (s : State) (t : List Byte) : (s.writeBack t).pal = s.pal := rfl
@[simp] theorem writeBack_rngReq (s : State) (t : List Byte) : (s.writeBack t).rngReq = s.rngReq := rfl
@[simp] theorem writeBack_rstN (s : State) (t : List Byte) : (s.writeBack t).rstN = s.rstN := rfl
@[simp] theorem writeBack_resp (s : State) (t : List Byte) : (s.writeBack t).resp = s.resp := rfl
@[simp] theorem writeBack_inputs (s : State) (t : List Byte) : (s.writeBack t).inputs = s.inputs := rfl

/-! ### commitPalette -/

@[simp] theorem commitPalette_cfg (s : State) (n : Nat) (f : Nat → Nat) : (s.commitPalette n f).cfg = s.cfg := rfl
@[simp] theorem commitPalette_irqEn (s : State) (n : Nat) (f : Nat → Nat) : (s.commitPalette n f).irqEn = s.irqEn := rfl
@[simp] theorem commitPalette_engine (s : State) (n : Nat) (f : Nat → Nat) : (s.commitPalette n f).engine = s.engine := rfl
@[simp] theorem commitPalette_done (s : State) (n : Nat) (f : Nat → Nat) : (s.commitPalette n f).done = s.done := rfl
@[simp] theorem commitPalette_err (s : State) (n : Nat) (f : Nat → Nat) : (s.commitPalette n f).err = s.err := rfl
@[simp] theorem commitPalette_ovr (s : State) (n : Nat) (f : Nat → Nat) : (s.commitPalette n f).ovr = s.ovr := rfl
@[simp] theorem commitPalette_errcode (s : State) (n : Nat) (f : Nat → Nat) : (s.commitPalette n f).errcode = s.errcode := rfl
@[simp] theorem commitPalette_cmd (s : State) (n : Nat) (f : Nat → Nat) : (s.commitPalette n f).cmd = s.cmd := rfl
@[simp] theorem commitPalette_palcnt (s : State) (n : Nat) (f : Nat → Nat) : (s.commitPalette n f).palcnt = BitVec.ofNat 7 n := rfl
@[simp] theorem commitPalette_strlen (s : State) (n : Nat) (f : Nat → Nat) : (s.commitPalette n f).strlen = s.strlen := rfl
@[simp] theorem commitPalette_args (s : State) (n : Nat) (f : Nat → Nat) : (s.commitPalette n f).args = s.args := rfl
@[simp] theorem commitPalette_res (s : State) (n : Nat) (f : Nat → Nat) : (s.commitPalette n f).res = s.res := rfl
@[simp] theorem commitPalette_str (s : State) (n : Nat) (f : Nat → Nat) : (s.commitPalette n f).str = s.str := rfl
@[simp] theorem commitPalette_pal (s : State) (n : Nat) (f : Nat → Nat) : (s.commitPalette n f).pal = Vector.ofFn fun k : Fin 64 => if k.val < n then BitVec.ofNat 24 (f k.val) else s.pal[k] := rfl
@[simp] theorem commitPalette_rngReq (s : State) (n : Nat) (f : Nat → Nat) : (s.commitPalette n f).rngReq = s.rngReq := rfl
@[simp] theorem commitPalette_rstN (s : State) (n : Nat) (f : Nat → Nat) : (s.commitPalette n f).rstN = s.rstN := rfl
@[simp] theorem commitPalette_resp (s : State) (n : Nat) (f : Nat → Nat) : (s.commitPalette n f).resp = s.resp := rfl
@[simp] theorem commitPalette_inputs (s : State) (n : Nat) (f : Nat → Nat) : (s.commitPalette n f).inputs = s.inputs := rfl

/-! ### resetRegisters -/

@[simp] theorem resetRegisters_cfg (s : State) : (resetRegisters s).cfg = s.cfg := rfl
@[simp] theorem resetRegisters_irqEn (s : State) : (resetRegisters s).irqEn = State.reset.irqEn := rfl
@[simp] theorem resetRegisters_engine (s : State) : (resetRegisters s).engine = State.reset.engine := rfl
@[simp] theorem resetRegisters_done (s : State) : (resetRegisters s).done = State.reset.done := rfl
@[simp] theorem resetRegisters_err (s : State) : (resetRegisters s).err = State.reset.err := rfl
@[simp] theorem resetRegisters_ovr (s : State) : (resetRegisters s).ovr = State.reset.ovr := rfl
@[simp] theorem resetRegisters_errcode (s : State) : (resetRegisters s).errcode = State.reset.errcode := rfl
@[simp] theorem resetRegisters_cmd (s : State) : (resetRegisters s).cmd = State.reset.cmd := rfl
@[simp] theorem resetRegisters_palcnt (s : State) : (resetRegisters s).palcnt = State.reset.palcnt := rfl
@[simp] theorem resetRegisters_strlen (s : State) : (resetRegisters s).strlen = State.reset.strlen := rfl
@[simp] theorem resetRegisters_args (s : State) : (resetRegisters s).args = State.reset.args := rfl
@[simp] theorem resetRegisters_res (s : State) : (resetRegisters s).res = State.reset.res := rfl
@[simp] theorem resetRegisters_str (s : State) : (resetRegisters s).str = State.reset.str := rfl
@[simp] theorem resetRegisters_pal (s : State) : (resetRegisters s).pal = State.reset.pal := rfl
@[simp] theorem resetRegisters_rngReq (s : State) : (resetRegisters s).rngReq = State.reset.rngReq := rfl
@[simp] theorem resetRegisters_rstN (s : State) : (resetRegisters s).rstN = s.rstN := rfl
@[simp] theorem resetRegisters_resp (s : State) : (resetRegisters s).resp = s.resp := rfl
@[simp] theorem resetRegisters_inputs (s : State) : (resetRegisters s).inputs = s.inputs := rfl

/-! ### Views of the engine -/

@[simp] theorem busy_of_idle (s : State) (h : s.engine = .idle) : s.busy = false := by simp [State.busy, h]

@[simp] theorem busy_of_busy (s : State) (w : Word) (o : Operands) (d : List Word) (h : s.engine = .busy w o d) :
    s.busy = true := by simp [State.busy, h]

/-- STATUS.BUSY is the engine holding a command (10_state.md R42). -/
theorem busy_iff (s : State) : s.busy = true ↔ ∃ w o d, s.engine = .busy w o d := by
  unfold State.busy; split <;> simp_all

theorem not_busy_iff (s : State) : s.busy = false ↔ s.engine = .idle := by
  unfold State.busy; split <;> simp_all

theorem ops_of_busy {s : State} {w : Word} {o : Operands} {d : List Word} (h : s.engine = .busy w o d) : s.ops = o := by
  simp [State.ops, h]

theorem drawn_of_busy {s : State} {w : Word} {o : Operands} {d : List Word} (h : s.engine = .busy w o d) :
    s.drawn = d := by simp [State.drawn, h]

/-- Removing an event changes nothing a command reads. -/
@[simp] theorem ops_inputs (s : State) (l : List Input) : { s with inputs := l }.ops = s.ops := rfl

@[simp] theorem drawn_inputs (s : State) (l : List Input) : { s with inputs := l }.drawn = s.drawn := rfl

end Sys2Proof.Machine
end

