-- ==== Sys2Proof/Laws/Arith.lean ====
section
/-! SUPPORT. The arithmetic of the commands: rounding (00_scope.md R13), the folds and the hex text (41_hex.md R163, R169),
packed numbers (40_packing.md R141 to R144), the HSV datapath's range (42_hsv.md R201) and the uniform mapping
(44_random.md R250). -/

namespace Sys2Proof.Machine

/-! ### Rounding -/

/-- `roundHalfUp` is the floor of the quotient plus a half. -/
theorem roundHalfUp_eq_floor (n d : Nat) (hd : 0 < d) : (roundHalfUp n d : ℤ) = ⌊(n : ℚ) / d + 1 / 2⌋ := by
  have hd' : (0 : ℚ) < d := by exact_mod_cast hd
  have h : (n : ℚ) / d + 1 / 2 = ((2 * n + d : ℕ) : ℚ) / ((2 * d : ℕ) : ℚ) := by
    push_cast; field_simp
  rw [h, Rat.floor_natCast_div_natCast]
  rfl

theorem roundHalfUp_mul (k d : Nat) (hd : 0 < d) : roundHalfUp (k * d) d = k := by
  unfold roundHalfUp
  have h : 2 * (k * d) + d = d + (2 * d) * k := by ring
  rw [h, Nat.add_mul_div_left _ _ (by omega), Nat.div_eq_of_lt (by omega)]
  omega

theorem roundHalfUp_mono {n m : Nat} (d : Nat) (h : n ≤ m) : roundHalfUp n d ≤ roundHalfUp m d :=
  Nat.div_le_div_right (by omega)

/-- A rounded quotient that is at most k rounds to at most k. -/
theorem roundHalfUp_le {n d k : Nat} (hd : 0 < d) (h : n ≤ k * d) : roundHalfUp n d ≤ k :=
  (roundHalfUp_mono d h).trans_eq (roundHalfUp_mul k d hd)

/-! ### Folds -/

theorem foldSafe_append (b : List Byte) (c : Byte) : foldSafe (b ++ [c]) = foldSafe b * 16 + digitValue c := by
  simp [foldSafe, List.foldl_append]

/-- The safe fold is the number the digits denote in base 16. -/
theorem foldSafe_eq_ofDigits (b : List Byte) : foldSafe b = Nat.ofDigits 16 (b.map digitValue).reverse := by
  induction b using List.reverseRecOn with
  | nil => rfl
  | append_singleton b c ih => rw [foldSafe_append, ih]; simp [Nat.ofDigits_cons]; ring

theorem foldSafe_lt (b : List Byte) (h : ∀ c ∈ b, digitValue c ≤ 15) : foldSafe b < 16 ^ b.length := by
  induction b using List.reverseRecOn with
  | nil => simp [foldSafe]
  | append_singleton b c ih =>
    have h1 := ih fun x hx => h x (by simp [hx])
    have h2 := h c (by simp)
    rw [foldSafe_append, List.length_append, List.length_singleton, pow_succ]
    omega

theorem foldFast_append (b : List Byte) (c : Byte) :
    foldFast (b ++ [c]) = (foldFast b <<< 4) ||| BitVec.ofNat 32 (digitValue c) := by
  simp [foldFast, List.foldl_append]

/-- One step of the fast fold is one step of the safe fold modulo 2^32. -/
theorem shift_or_digit (a : Word) (n : Nat) (h : n ≤ 15) :
    ((a <<< 4) ||| BitVec.ofNat 32 n).toNat = (a.toNat * 16 + n) % 2 ^ 32 := by
  have h1 : (a <<< 4) ||| BitVec.ofNat 32 n = (a <<< 4) + BitVec.ofNat 32 n := by
    rw [BitVec.add_eq_or_of_and_eq_zero]
    apply BitVec.eq_of_getLsbD_eq
    intro i hi
    have hb : n < 2 ^ 4 := by omega
    by_cases h4 : i < 4
    · simp [h4]
    · have : n.testBit i = false := Nat.testBit_lt_two_pow (lt_of_lt_of_le hb (Nat.pow_le_pow_right (by omega) (by omega)))
      simp [BitVec.getLsbD_ofNat, this]
  rw [h1, BitVec.toNat_add, BitVec.toNat_shiftLeft, BitVec.toNat_ofNat, Nat.shiftLeft_eq]
  omega

theorem foldFast_toNat (b : List Byte) (h : ∀ c ∈ b, digitValue c ≤ 15) :
    (foldFast b).toNat = foldSafe b % 2 ^ 32 := by
  induction b using List.reverseRecOn with
  | nil => rfl
  | append_singleton b c ih =>
    rw [foldFast_append, foldSafe_append, shift_or_digit _ _ (h c (by simp)), ih fun x hx => h x (by simp [hx])]
    omega

/-- Up to eight digits the two folds agree (R163 claims it for up to seven). -/
theorem foldFast_eq_foldSafe (b : List Byte) (h : ∀ c ∈ b, digitValue c ≤ 15) (hl : b.length ≤ 8) :
    (foldFast b).toNat = foldSafe b := by
  rw [foldFast_toNat b h]
  exact Nat.mod_eq_of_lt ((foldSafe_lt b h).trans_le (Nat.pow_le_pow_right (by omega) hl))

/-! ### Hex text -/

theorem hexChar_digit : ∀ n < 16, digitValue (hexChar n) = n := by decide

@[simp] theorem hexDigits_length (k n : Nat) : (hexDigits k n).length = k := by
  induction k generalizing n with
  | zero => rfl
  | succ k ih => simp [hexDigits, ih]

theorem hexDigits_digit (k n : Nat) : ∀ c ∈ hexDigits k n, digitValue c ≤ 15 := by
  induction k generalizing n with
  | zero => simp [hexDigits]
  | succ k ih =>
    intro c hc
    rcases List.mem_append.mp hc with h | h
    · exact ih _ c h
    · rw [List.mem_singleton.mp h, hexChar_digit _ (Nat.mod_lt _ (by omega))]
      omega

/-- Folding k digits of n gives n back, modulo 16^k. -/
theorem foldSafe_hexDigits (k n : Nat) : foldSafe (hexDigits k n) = n % 16 ^ k := by
  induction k generalizing n with
  | zero => simp [hexDigits, foldSafe, Nat.mod_one]
  | succ k ih =>
    rw [hexDigits, foldSafe_append, ih, hexChar_digit _ (Nat.mod_lt _ (by omega)), pow_succ', Nat.mod_mul]
    ring

/-- Digit j of the text, the most significant first. -/
theorem hexDigits_getElem (k n j : Nat) (h : j < (hexDigits k n).length) :
    (hexDigits k n)[j] = hexChar (n / 16 ^ (k - 1 - j) % 16) := by
  induction k generalizing n with
  | zero => simp at h
  | succ k ih =>
    simp only [hexDigits_length] at h
    simp only [hexDigits]
    by_cases hj : j < k
    · rw [List.getElem_append_left (by simpa using hj), ih (n / 16) (by simpa using hj), Nat.div_div_eq_div_mul,
        ← pow_succ']
      congr 4
      omega
    · have hjk : j = k := by omega
      subst hjk
      simp

/-! ### Packed numbers -/

theorem byteLane_lt (n i : Nat) : byteLane n i < 256 := Nat.mod_lt _ (by omega)

theorem packRgbNumber_lt {r g b : Nat} (hr : r ≤ 255) (hg : g ≤ 255) (hb : b ≤ 255) :
    packRgbNumber r g b < 2 ^ 24 := by unfold packRgbNumber; omega

theorem packRgbaNumber_lt {r g b a : Nat} (hr : r ≤ 255) (hg : g ≤ 255) (hb : b ≤ 255) (ha : a ≤ 255) :
    packRgbaNumber r g b a < 2 ^ 32 := by unfold packRgbaNumber; omega

/-- The lanes of a packed RGB number are its channels. -/
theorem byteLane_packRgb {r g b : Nat} (hr : r ≤ 255) (hg : g ≤ 255) (hb : b ≤ 255) :
    byteLane (packRgbNumber r g b) 2 = r ∧ byteLane (packRgbNumber r g b) 1 = g ∧
      byteLane (packRgbNumber r g b) 0 = b := by
  unfold byteLane packRgbNumber; omega

theorem byteLane_packRgba {r g b a : Nat} (hr : r ≤ 255) (hg : g ≤ 255) (hb : b ≤ 255) (ha : a ≤ 255) :
    byteLane (packRgbaNumber r g b a) 3 = r ∧ byteLane (packRgbaNumber r g b a) 2 = g ∧
      byteLane (packRgbaNumber r g b a) 1 = b ∧ byteLane (packRgbaNumber r g b a) 0 = a := by
  unfold byteLane packRgbaNumber; omega

/-! ### The HSV datapath -/

/-- Every channel `hsvCore` computes is at most 255 (R201: 'Each output lies in 0..255'). -/
theorem hsvChannel_le {w g sat val : Nat} (hw : 0 < w) (hg : g ≤ w) (hs : sat ≤ 100) (hv : val ≤ 100) :
    roundHalfUp (255 * val * (sat * g + (100 - sat) * w)) (10000 * w) ≤ 255 := by
  apply roundHalfUp_le (by omega)
  have h1 : sat * g + (100 - sat) * w ≤ 100 * w := by
    calc sat * g + (100 - sat) * w ≤ sat * w + (100 - sat) * w := by gcongr
      _ = 100 * w := by rw [← Nat.add_mul]; congr 1; omega
  calc 255 * val * (sat * g + (100 - sat) * w) ≤ 255 * 100 * (100 * w) := by gcongr
    _ = 255 * (10000 * w) := by ring

theorem sectorTriple_le {i c x z m : Nat} (hc : c ≤ m) (hx : x ≤ m) (hz : z ≤ m) :
    (sectorTriple i c x z).1 ≤ m ∧ (sectorTriple i c x z).2.1 ≤ m ∧ (sectorTriple i c x z).2.2 ≤ m := by
  unfold sectorTriple; split <;> exact ⟨by assumption, by assumption, by assumption⟩

theorem hsvCore_le {n d sat val : Nat} (hd : 0 < d) (hs : sat ≤ 100) (hv : val ≤ 100) :
    (hsvCore n d sat val).1 ≤ 255 ∧ (hsvCore n d sat val).2.1 ≤ 255 ∧ (hsvCore n d sat val).2.2 ≤ 255 := by
  have hw : 0 < 60 * d := by omega
  have hf : n % (60 * d) ≤ 60 * d := (Nat.mod_lt _ hw).le
  refine sectorTriple_le (hsvChannel_le hw le_rfl hs hv) (hsvChannel_le hw ?_ hs hv)
    (hsvChannel_le hw (by omega) hs hv)
  split <;> omega

theorem packTriple_hsvCore_lt {n d sat val : Nat} (hd : 0 < d) (hs : sat ≤ 100) (hv : val ≤ 100) :
    packTriple (hsvCore n d sat val) < 2 ^ 24 := by
  obtain ⟨h1, h2, h3⟩ := hsvCore_le (n := n) hd hs hv
  exact packRgbNumber_lt h1 h2 h3

/-! ### The uniform mapping -/

theorem inRange_ge (u : Word) (lo hi : Nat) : lo ≤ inRange u lo hi := Nat.le_add_right _ _

theorem inRange_le (u : Word) {lo hi : Nat} (h : lo ≤ hi) : inRange u lo hi ≤ hi := by
  unfold inRange
  have h1 : u.toNat * (hi - lo + 1) / 2 ^ 32 < hi - lo + 1 := by
    rw [Nat.div_lt_iff_lt_mul (by norm_num)]
    have := u.isLt
    calc u.toNat * (hi - lo + 1) < 2 ^ 32 * (hi - lo + 1) := by gcongr
      _ = (hi - lo + 1) * 2 ^ 32 := by ring
  omega

end Sys2Proof.Machine
end

