-- ==== Sys2Proof/Laws/Ops.lean ====
section
/-! SUPPORT. One lemma for each shared operation of Machine/Ops.lean: what it answers, in the terms of Safety.lean, so that
a proof cites it rather than unfold it. -/

namespace Sys2Proof.Machine

/-! ### Completion -/

/-- An error's completion is the state before it but for the STATUS side (60_exceptions.md R280). -/
theorem raise_eq (c : ErrCode) (hc : c ≠ .none) (s : State) : raise c s = .next (failedWith c s) := by
  simp [raise, complete, flagsAtCompletion, failedWith, hc]

theorem finish_eq (s : State) : finish s = .next (complete .none s) := rfl

/-- A completion without error of a state that differs from `s` only in outputs succeeds (R330). -/
theorem succeeded_complete {s s' : State} (h : SameOutside s s') : Succeeded s (complete .none s') :=
  ⟨rfl, rfl, rfl, by simp, rfl, ⟨h.cfg, h.irqEn, h.ovr, h.cmd, h.args, h.rstN, h.resp, h.inputs⟩⟩

theorem sameOutside_refl (s : State) : SameOutside s s := ⟨rfl, rfl, rfl, rfl, rfl, rfl, rfl, rfl⟩

theorem sameOutside_setRes (s : State) (i : Fin 4) (v : Nat) : SameOutside s (s.setRes i v) :=
  ⟨rfl, rfl, rfl, rfl, rfl, rfl, rfl, rfl⟩

theorem sameOutside_writeBack (s : State) (t : List Byte) : SameOutside s (s.writeBack t) :=
  ⟨rfl, rfl, rfl, rfl, rfl, rfl, rfl, rfl⟩

theorem sameOutside_commitPalette (s : State) (n : Nat) (f : Nat → Nat) : SameOutside s (s.commitPalette n f) :=
  ⟨rfl, rfl, rfl, rfl, rfl, rfl, rfl, rfl⟩

theorem sameOutside_trans {s t u : State} (h : SameOutside s t) (k : SameOutside t u) : SameOutside s u :=
  ⟨k.cfg.trans h.cfg, k.irqEn.trans h.irqEn, k.ovr.trans h.ovr, k.cmd.trans h.cmd, k.args.trans h.args,
    k.rstN.trans h.rstN, k.resp.trans h.resp, k.inputs.trans h.inputs⟩

theorem sameOutside_setRgb (s : State) (n : Nat) : SameOutside s (s.setRgb n) :=
  ⟨rfl, rfl, rfl, rfl, rfl, rfl, rfl, rfl⟩

theorem sameOutside_setRgba (s : State) (n : Nat) : SameOutside s (s.setRgba n) :=
  ⟨rfl, rfl, rfl, rfl, rfl, rfl, rfl, rfl⟩

theorem sameOutside_setTriple (s : State) (t : Nat × Nat × Nat) : SameOutside s (s.setTriple t) :=
  ⟨rfl, rfl, rfl, rfl, rfl, rfl, rfl, rfl⟩

/-! ### Result registers -/

theorem setRes_get (s : State) (i k : Fin 4) (v : Nat) :
    (s.setRes i v).res[k] = if i = k then BitVec.ofNat 32 v else s.res[k] := by
  simp only [setRes_res, Fin.getElem_fin]
  rw [Vector.getElem_set]
  simp only [Fin.val_inj]

theorem setRgb_get (s : State) (n : Nat) :
    (s.setRgb n).res[0] = BitVec.ofNat 32 (byteLane n 2) ∧ (s.setRgb n).res[1] = BitVec.ofNat 32 (byteLane n 1) ∧
      (s.setRgb n).res[2] = BitVec.ofNat 32 (byteLane n 0) ∧ (s.setRgb n).res[3] = s.res[3] := by
  simp [State.setRgb]

theorem setRgba_get (s : State) (n : Nat) :
    (s.setRgba n).res[0] = BitVec.ofNat 32 (byteLane n 3) ∧ (s.setRgba n).res[1] = BitVec.ofNat 32 (byteLane n 2) ∧
      (s.setRgba n).res[2] = BitVec.ofNat 32 (byteLane n 1) ∧ (s.setRgba n).res[3] = BitVec.ofNat 32 (byteLane n 0) := by
  simp [State.setRgba]

theorem setTriple_get (s : State) (t : Nat × Nat × Nat) :
    (s.setTriple t).res[0] = BitVec.ofNat 32 t.1 ∧ (s.setTriple t).res[1] = BitVec.ofNat 32 t.2.1 ∧
      (s.setTriple t).res[2] = BitVec.ofNat 32 t.2.2 ∧ (s.setTriple t).res[3] = s.res[3] := by
  simp [State.setTriple]

/-- A palette commit writes the entries below the count and leaves the others (43_palette.md R230). -/
theorem commitPalette_get (s : State) (n : Nat) (f : Nat → Nat) (k : Fin 64) :
    (s.commitPalette n f).pal[k] = if k.val < n then BitVec.ofNat 24 (f k.val) else s.pal[k] := by
  simp [State.commitPalette]

/-- A string write-back holds the text and then zeros (41_hex.md R170). -/
theorem writeBack_get (s : State) (t : List Byte) (j : Fin 16) : (s.writeBack t).str[j] = t.getD j.val 0 := by
  simp [State.writeBack]

/-! ### Draws -/

theorem withDraw_cons {s : State} {u : Word} {l : List Word} (h : s.drawn = u :: l) (k : Word → Outcome) :
    withDraw s k = k u := by simp [withDraw, h]

theorem withDraw_wait {s : State} (h : s.drawn.length < 1) (k : Word → Outcome) :
    withDraw s k = .next { s with rngReq := true } := by
  have h' : s.drawn = [] := by simpa using h
  simp [withDraw, h', waitForWord]

theorem withThreeDraws_cons {s : State} {ur ug ub : Word} {l : List Word} (h : s.drawn = ur :: ug :: ub :: l)
    (k : Word → Word → Word → Outcome) : withThreeDraws s k = k ur ug ub := by simp [withThreeDraws, h]

theorem withThreeDraws_wait {s : State} (h : s.drawn.length < 3) (k : Word → Word → Word → Outcome) :
    withThreeDraws s k = .next { s with rngReq := true } := by
  unfold withThreeDraws
  split
  · rename_i e; rw [e] at h; simp at h; omega
  · rfl

theorem withFourDraws_cons {s : State} {ur ug ub ua : Word} {l : List Word}
    (h : s.drawn = ur :: ug :: ub :: ua :: l) (k : Word → Word → Word → Word → Outcome) :
    withFourDraws s k = k ur ug ub ua := by simp [withFourDraws, h]

theorem withFourDraws_wait {s : State} (h : s.drawn.length < 4) (k : Word → Word → Word → Word → Outcome) :
    withFourDraws s k = .next { s with rngReq := true } := by
  unfold withFourDraws
  split
  · rename_i e; rw [e] at h; simp at h; omega
  · rfl

/-- A list of at least one, three or four words begins with them. -/
theorem one_le_length {l : List Word} (h : 1 ≤ l.length) : ∃ u m, l = u :: m := by
  match l, h with
  | u :: m, _ => exact ⟨u, m, rfl⟩

theorem three_le_length {l : List Word} (h : 3 ≤ l.length) : ∃ a b c m, l = a :: b :: c :: m := by
  match l, h with
  | a :: b :: c :: m, _ => exact ⟨a, b, c, m, rfl⟩
  | [], h => simp at h
  | [_], h => simp at h
  | [_, _], h => simp at h

theorem four_le_length {l : List Word} (h : 4 ≤ l.length) : ∃ a b c d m, l = a :: b :: c :: d :: m := by
  match l, h with
  | a :: b :: c :: d :: m, _ => exact ⟨a, b, c, d, m, rfl⟩
  | [], h => simp at h
  | [_], h => simp at h
  | [_, _], h => simp at h
  | [_, _, _], h => simp at h

/-! ### Operand checks -/

theorem channelOk_iff {x : Nat} : channelOk x = true ↔ x ≤ 255 := by simp [channelOk]

theorem not_channelTooBig_three {o : Operands} :
    ¬o.channelTooBig 3 ↔ o.args[0].toNat ≤ 255 ∧ o.args[1].toNat ≤ 255 ∧ o.args[2].toNat ≤ 255 := by
  simp [Operands.channelTooBig, Fin.exists_fin_succ]

theorem not_channelTooBig_four {o : Operands} :
    ¬o.channelTooBig 4 ↔
      o.args[0].toNat ≤ 255 ∧ o.args[1].toNat ≤ 255 ∧ o.args[2].toNat ≤ 255 ∧ o.args[3].toNat ≤ 255 := by
  simp [Operands.channelTooBig, Fin.exists_fin_succ]

theorem withRgb_ok {s : State} (h : ¬s.ops.channelTooBig 3) (k : Nat → Nat → Nat → Outcome) :
    withRgb s k = k s.ops.args[0].toNat s.ops.args[1].toNat s.ops.args[2].toNat := by
  rw [not_channelTooBig_three] at h
  simp [withRgb, channelOk, Operands.u, h]

theorem withRgb_raise {s : State} (h : s.ops.channelTooBig 3) (k : Nat → Nat → Nat → Outcome) :
    withRgb s k = .next (failedWith .outOfRange s) := by
  rw [← raise_eq _ (by decide)]
  refine if_neg fun hk => absurd h (not_channelTooBig_three.mpr ?_)
  simp only [Bool.and_eq_true, channelOk_iff, and_assoc] at hk
  exact hk

theorem withRgba_ok {s : State} (h : ¬s.ops.channelTooBig 4) (k : Nat → Nat → Nat → Nat → Outcome) :
    withRgba s k = k s.ops.args[0].toNat s.ops.args[1].toNat s.ops.args[2].toNat s.ops.args[3].toNat := by
  rw [not_channelTooBig_four] at h
  simp [withRgba, channelOk, Operands.u, h]

theorem withRgba_raise {s : State} (h : s.ops.channelTooBig 4) (k : Nat → Nat → Nat → Nat → Outcome) :
    withRgba s k = .next (failedWith .outOfRange s) := by
  rw [← raise_eq _ (by decide)]
  refine if_neg fun hk => absurd h (not_channelTooBig_four.mpr ?_)
  simp only [Bool.and_eq_true, channelOk_iff, and_assoc] at hk
  exact hk

/-- When a string is well formed for a decoder (41_hex.md R161, R162). -/
theorem not_malformed_iff {o : Operands} {l : List Nat} :
    ¬o.malformed l ↔
      o.strlen.toNat ≤ 16 ∧ (stringBody o.text).length ∈ l ∧ ∀ c ∈ stringBody o.text, digitValue c ≤ 15 := by
  simp [Operands.malformed]

theorem withBody_ok {s : State} {l : List Nat} {p : Nat → Bool} (hp : ∀ n, p n = true ↔ n ∈ l)
    (h : ¬s.ops.malformed l) (k : List Byte → Outcome) : withBody s p k = k (stringBody s.ops.text) := by
  obtain ⟨h1, h2, h3⟩ := not_malformed_iff.mp h
  have h4 : (stringBody s.ops.text).all isHexDigit = true := by simpa [isHexDigit] using h3
  simp [withBody, not_lt.mpr h1, (hp _).mpr h2, h4]

theorem withBody_raise {s : State} {l : List Nat} {p : Nat → Bool} (hp : ∀ n, p n = true ↔ n ∈ l)
    (h : s.ops.malformed l) (k : List Byte → Outcome) :
    withBody s p k = .next (failedWith .invalidFormat s) := by
  rw [← raise_eq _ (by decide)]
  unfold withBody
  split
  · rfl
  · rename_i h1
    rw [if_neg]
    intro h2
    simp only [Bool.and_eq_true, hp] at h2
    refine absurd h (not_malformed_iff.mpr ⟨not_lt.mp h1, h2.1, ?_⟩)
    simpa [isHexDigit] using h2.2

theorem withCount_ok {s : State} (h : ¬s.ops.badCount s.cfg) (k : Nat → Outcome) :
    withCount s k = k s.ops.args[0].toInt.toNat := by
  have h' := not_or.mp h
  simp [withCount, Operands.s, h'.1, h'.2]

theorem withCount_raise {s : State} (h : s.ops.badCount s.cfg) (k : Nat → Outcome) :
    withCount s k = .next (failedWith .invalidArgument s) := by
  rw [← raise_eq _ (by decide)]
  exact if_pos (by rw [Bool.or_eq_true, decide_eq_true_iff, decide_eq_true_iff]; exact h)

/-- A palette count that is in range, as a natural number (43_palette.md R230). -/
theorem count_bounds {o : Operands} {b : Build} (h : ¬o.badCount b) :
    1 ≤ o.args[0].toInt.toNat ∧ o.args[0].toInt.toNat ≤ b.palMax ∧ b.palMax ≤ 64 ∧
      (o.args[0].toInt.toNat : Int) = o.args[0].toInt := by
  have h' := not_or.mp h
  have hb := b.palMaxPred.isLt
  unfold Build.palMax at *
  omega

end Sys2Proof.Machine
end

