-- ==== Sys2Proof/Laws/Exec.lean ====
section
/-! SUPPORT. What a command and a step can do, said once: the inversion lemmas every whole-machine proof starts from. -/

namespace Sys2Proof.Machine

/-- The three ways a command's turn ends: it waits for a word, it fails, or it commits outputs and succeeds
(60_exceptions.md R280, R301; 70_reset_and_hazards.md R330). -/
inductive Ended (s : State) : Outcome → Prop where
  | waits : Ended s (.next { s with rngReq := true })
  | fails (c : ErrCode) (hc : c ≠ .none) : Ended s (.next (failedWith c s))
  | commits (s' : State) (h : SameOutside s s') : Ended s (.next (complete .none s'))

theorem ended_finish {s s' : State} (h : SameOutside s s') : Ended s (finish s') := .commits s' h

theorem ended_raise {s : State} {c : ErrCode} (hc : c ≠ .none) : Ended s (raise c s) := by
  rw [raise_eq c hc]; exact .fails c hc

theorem ended_withRgb {s : State} {k : Nat → Nat → Nat → Outcome} (h : ∀ r g b, Ended s (k r g b)) :
    Ended s (withRgb s k) := by
  unfold withRgb; dsimp only; split
  · exact h _ _ _
  · exact ended_raise (by decide)

theorem ended_withRgba {s : State} {k : Nat → Nat → Nat → Nat → Outcome} (h : ∀ r g b a, Ended s (k r g b a)) :
    Ended s (withRgba s k) := by
  unfold withRgba; dsimp only; split
  · exact h _ _ _ _
  · exact ended_raise (by decide)

theorem ended_withBody {s : State} {p : Nat → Bool} {k : List Byte → Outcome} (h : ∀ b, Ended s (k b)) :
    Ended s (withBody s p k) := by
  unfold withBody; dsimp only; split
  · exact ended_raise (by decide)
  · split
    · exact h _
    · exact ended_raise (by decide)

theorem ended_withCount {s : State} {k : Nat → Outcome} (h : ∀ n, Ended s (k n)) : Ended s (withCount s k) := by
  unfold withCount; dsimp only; split
  · exact ended_raise (by decide)
  · exact h _

theorem ended_withDraw {s : State} {k : Word → Outcome} (h : ∀ u, Ended s (k u)) : Ended s (withDraw s k) := by
  unfold withDraw; split
  · exact h _
  · exact .waits

theorem ended_withThreeDraws {s : State} {k : Word → Word → Word → Outcome} (h : ∀ u v w, Ended s (k u v w)) :
    Ended s (withThreeDraws s k) := by
  unfold withThreeDraws; split
  · exact h _ _ _
  · exact .waits

theorem ended_withFourDraws {s : State} {k : Word → Word → Word → Word → Outcome}
    (h : ∀ u v w x, Ended s (k u v w x)) : Ended s (withFourDraws s k) := by
  unfold withFourDraws; split
  · exact h _ _ _ _
  · exact .waits

/-- Whatever the command and the state, its turn ends in one of the three ways. -/
theorem exec_ended (i : Instr) (s : State) : Ended s (exec i s) := by
  cases i with
  | packRgb => change Ended s (execPackRgb s); unfold execPackRgb; exact ended_withRgb fun _ _ _ => ended_finish (sameOutside_setRes ..)
  | packRgba => change Ended s (execPackRgba s); unfold execPackRgba; exact ended_withRgba fun _ _ _ _ => ended_finish (sameOutside_setRes ..)
  | unpackRgb => change Ended s (execUnpackRgb s); unfold execUnpackRgb; exact ended_finish (sameOutside_setRgb ..)
  | unpackRgba => change Ended s (execUnpackRgba s); unfold execUnpackRgba; exact ended_finish (sameOutside_setRgba ..)
  | hex2num => change Ended s (execHex2num s); unfold execHex2num; exact ended_withBody fun _ => ended_finish (sameOutside_trans (sameOutside_setRes ..) (sameOutside_setRes ..))
  | hex2numFast => change Ended s (execHex2numFast s); unfold execHex2numFast; exact ended_withBody fun _ => ended_finish (sameOutside_setRes ..)
  | num2hex6 => change Ended s (execNum2hex6 s); unfold execNum2hex6; exact ended_finish (sameOutside_writeBack ..)
  | num2hex8 => change Ended s (execNum2hex8 s); unfold execNum2hex8; exact ended_finish (sameOutside_writeBack ..)
  | isHex => change Ended s (execIsHex s); unfold execIsHex; exact ended_finish (sameOutside_setRes ..)
  | hex2rgb => change Ended s (execHex2rgb s); unfold execHex2rgb; exact ended_withBody fun _ => ended_finish (sameOutside_setRgb ..)
  | hex2rgba => change Ended s (execHex2rgba s); unfold execHex2rgba; exact ended_withBody fun _ => ended_finish (sameOutside_setRgba ..)
  | rgb2hex => change Ended s (execRgb2hex s); unfold execRgb2hex; exact ended_withRgb fun _ _ _ => ended_finish (sameOutside_writeBack ..)
  | rgba2hex => change Ended s (execRgba2hex s); unfold execRgba2hex; exact ended_withRgba fun _ _ _ _ => ended_finish (sameOutside_writeBack ..)
  | hsv2rgb => change Ended s (execHsv2rgb s); unfold execHsv2rgb; exact ended_finish (sameOutside_setTriple ..)
  | rgb2hsv => change Ended s (execRgb2hsv s); unfold execRgb2hsv; exact ended_withRgb fun _ _ _ => ended_finish (sameOutside_setTriple ..)
  | palEven => change Ended s (execPalEven s); unfold execPalEven; exact ended_withCount fun _ => ended_finish (sameOutside_commitPalette ..)
  | palGolden => change Ended s (execPalGolden s); unfold execPalGolden; exact ended_withCount fun _ => ended_withDraw fun _ => ended_finish (sameOutside_commitPalette ..)
  | randRange =>
    change Ended s (execRandRange s)
    unfold execRandRange
    dsimp only
    split
    · exact ended_raise (by decide)
    · exact ended_withDraw fun _ => ended_finish (sameOutside_setRes ..)
  | randRgb => change Ended s (execRandRgb s); unfold execRandRgb; exact ended_withDraw fun _ => ended_finish (sameOutside_setRes ..)
  | randRgba => change Ended s (execRandRgba s); unfold execRandRgba; exact ended_withDraw fun _ => ended_finish (sameOutside_setRes ..)
  | randBrightRgb => change Ended s (execRandBrightRgb s); unfold execRandBrightRgb randomRgb; exact ended_withThreeDraws fun _ _ _ => ended_finish (sameOutside_setRes ..)
  | randPastelRgb => change Ended s (execRandPastelRgb s); unfold execRandPastelRgb randomRgb; exact ended_withThreeDraws fun _ _ _ => ended_finish (sameOutside_setRes ..)
  | randBrightRgba => change Ended s (execRandBrightRgba s); unfold execRandBrightRgba randomRgba; exact ended_withFourDraws fun _ _ _ _ => ended_finish (sameOutside_setRes ..)
  | randPastelRgba => change Ended s (execRandPastelRgba s); unfold execRandPastelRgba randomRgba; exact ended_withFourDraws fun _ _ _ _ => ended_finish (sameOutside_setRes ..)

/-- The engine's turn does nothing, or ends the turn of a busy engine in one of the three ways. -/
theorem engineTurn_cases (s : State) :
    engineTurn s = .next s ∨ (s.rstN = true ∧ s.busy = true ∧ Ended s (engineTurn s)) := by
  unfold engineTurn
  split
  · rename_i hr
    split
    · exact .inl rfl
    · rename_i w o d he
      refine .inr ⟨hr, busy_of_busy s w o d he, ?_⟩
      split
      · exact exec_ended _ _
      · exact ended_raise (by decide)
  · exact .inl rfl

/-- Every outcome of a turn is a next state. -/
theorem Ended.next {s : State} {o : Outcome} (h : Ended s o) : ∃ t, o = .next t := by
  cases h <;> exact ⟨_, rfl⟩

/-- The engine's turn, by what happened: nothing, a wait, a failure or a commit. -/
theorem engineTurn_next {s t : State} (h : engineTurn s = .next t) :
    t = s ∨ (s.rstN = true ∧ s.busy = true ∧
      (t = { s with rngReq := true } ∨ (∃ c, c ≠ .none ∧ t = failedWith c s) ∨
        ∃ s', SameOutside s s' ∧ t = complete .none s')) := by
  rcases engineTurn_cases s with h1 | ⟨hr, hb, h1⟩
  · rw [h1] at h; exact .inl (by cases h; rfl)
  · refine .inr ⟨hr, hb, ?_⟩
    rw [h] at h1
    generalize ho : (Host.Outcome.next t : Outcome) = o at h1
    cases h1 with
    | waits => cases ho; exact .inl rfl
    | fails c hc => cases ho; exact .inr (.inl ⟨c, hc, rfl⟩)
    | commits s' hs => cases ho; exact .inr (.inr ⟨s', hs, rfl⟩)

/-- A step is the engine's turn or the oldest event. -/
theorem step_cases {s t : State} (h : step s = .next t) :
    (s.inputs = [] ∧ engineTurn s = .next t) ∨
    ∃ e rest, s.inputs = e :: rest ∧ takeInput e { s with inputs := rest } = .next t := by
  unfold step at h
  split at h
  · rename_i he; exact .inl ⟨he, h⟩
  · rename_i e rest he; exact .inr ⟨e, rest, he, h⟩

end Sys2Proof.Machine
end

