-- ==== Sys2Proof/Laws/Bus.lean ====
section
/-! SUPPORT. The register window: which offset is which register, and what one access can do. -/

namespace Sys2Proof.Machine

/-- Every register of the build is found at its own offset (10_state.md section 1). -/
theorem regAt_offset (b : Build) (r : Reg) (h : ∀ k, r = .pal k → k.val < b.palMax) : regAt b r.offset = some r := by
  have hb := b.palMaxPred.isLt
  cases r with
  | id => rfl
  | cfg => rfl
  | ctrl => rfl
  | status => rfl
  | cmd => rfl
  | palcnt => rfl
  | strlen => rfl
  | arg i => fin_cases i <;> rfl
  | res i => fin_cases i <;> rfl
  | strbuf i => fin_cases i <;> rfl
  | pal k =>
    have hk := h k rfl
    have hk' := k.isLt
    have h9 : (BitVec.ofNat 9 (0x100 + 4 * k.val)).toNat = 0x100 + 4 * k.val := by
      rw [BitVec.toNat_ofNat]; exact Nat.mod_eq_of_lt (by omega)
    simp only [regAt, Reg.offset, h9]
    iterate 11 rw [if_neg (by omega)]
    rw [if_pos (by omega)]
    have hi : Fin.ofNat 64 ((0x100 + 4 * k.val - 0x100) / 4) = k := by
      apply Fin.ext
      simp [Fin.ofNat]
    rw [hi]

/-- No register stands at a misaligned or a reserved offset (20_memory.md R82, R84). -/
theorem regAt_none {b : Build} {off : Offset}
    (h : off.toNat % 4 ≠ 0 ∨ off.toNat = 0x01C ∨ (0x050 ≤ off.toNat ∧ off.toNat ≤ 0x0FF) ∨
      0x100 + 4 * b.palMax ≤ off.toNat) : regAt b off = none := by
  have hb : b.palMax ≤ 64 := by have := b.palMaxPred.isLt; unfold Build.palMax; omega
  unfold regAt
  dsimp only
  by_cases h4 : off.toNat % 4 ≠ 0
  · exact if_pos h4
  · rw [if_neg h4]
    iterate 11 rw [if_neg (by omega)]

/-- One line of the map: it gives its own register, or the lines below it decide. -/
theorem map_line {p : Prop} [Decidable p] {a r : Reg} {below : Option Reg} (h : (if p then some a else below) = some r) :
    (p ∧ a = r) ∨ below = some r := by
  split at h
  · exact .inl ⟨‹p›, Option.some.inj h⟩
  · exact .inr h

/-- The offset of a register found there. -/
theorem offset_of_regAt {b : Build} {off : Offset} {r : Reg} (h : regAt b off = some r) : r.offset = off := by
  have ho := off.isLt
  have hb : b.palMax ≤ 64 := by have := b.palMaxPred.isLt; unfold Build.palMax; omega
  have h4 : off.toNat % 4 = 0 := by
    by_contra hn
    rw [regAt_none (.inl hn)] at h
    cases h
  apply BitVec.eq_of_toNat_eq
  unfold regAt at h
  dsimp only at h
  rw [if_neg (by simpa using h4)] at h
  generalize off.toNat = o at *
  iterate 7
    rcases map_line h with ⟨e, rfl⟩ | h
    · exact e.symm
  iterate 3
    rcases map_line h with ⟨e, rfl⟩ | h
    · simp only [Reg.offset, Fin.val_ofNat, BitVec.toNat_ofNat]
      omega
  rcases map_line h with ⟨e, rfl⟩ | h
  · simp only [Reg.offset, Fin.val_ofNat, BitVec.toNat_ofNat]
    omega
  · cases h

/-- What the write behaviour of a register can do: nothing, a CTRL or a STATUS write, an overrun, an acceptance, or an
operand write while Idle (10_state.md R31 to R41, 70_reset_and_hazards.md R331). -/
theorem writeReg_cases (s : State) (v : Word) (r : Reg) :
    writeReg s v r = s ∨
    (r = .ctrl ∧ writeReg s v r = writeCtrl v s) ∨
    (r = .status ∧ writeReg s v r = writeStatus v s) ∨
    (s.busy = true ∧ (r = .cmd ∨ r = .strlen ∨ (∃ i, r = .arg i) ∨ ∃ i, r = .strbuf i) ∧
      writeReg s v r = { s with ovr := true }) ∨
    (s.busy = false ∧ r = .cmd ∧ writeReg s v r = acceptCommand v s) ∨
    (s.busy = false ∧ ∃ a l t, writeReg s v r = { s with args := a, strlen := l, str := t }) := by
  cases hb : s.busy <;> cases r <;> simp [writeReg, guardedWrite, hb]

/-- What one bus access can do: nothing but answer, or write one register (20_memory.md R80 to R84, R91, R320). -/
theorem busAccess_cases (a : BusAccess) (s : State) :
    (∃ r, busAccess a s = { s with resp := r }) ∨
    ∃ off v r, a = .write off 0b1111 v ∧ s.rstN = true ∧ regAt s.cfg off = some r ∧
      busAccess a s = { writeReg s v r with resp := some ⟨.okay, none⟩ } := by
  unfold busAccess
  split
  · rename_i hr
    cases a with
    | read off be =>
      left
      cases BusAccess.target s.cfg (.read off be) with
      | none => exact ⟨_, rfl⟩
      | some r => exact ⟨_, rfl⟩
    | write off be v =>
      by_cases hbe : be = 0b1111
      · subst hbe
        simp only [BusAccess.target, if_true]
        cases hreg : regAt s.cfg off with
        | none => exact .inl ⟨_, rfl⟩
        | some r => exact .inr ⟨off, v, r, rfl, hr, hreg, rfl⟩
      · left
        simp only [BusAccess.target, if_neg hbe]
        exact ⟨_, rfl⟩
  · exact .inl ⟨_, rfl⟩

/-- A legal write, register by register. -/
theorem busAccess_write {s : State} {off : Offset} {v : Word} {r : Reg} (hr : s.rstN = true)
    (h : regAt s.cfg off = some r) :
    busAccess (.write off 0b1111 v) s = { writeReg s v r with resp := some ⟨.okay, none⟩ } := by
  simp [busAccess, hr, BusAccess.target, h, serveAccess]

/-- A legal read. -/
theorem busAccess_read {s : State} {off : Offset} {r : Reg} (hr : s.rstN = true) (h : regAt s.cfg off = some r) :
    busAccess (.read off 0b1111) s = { s with resp := some ⟨.okay, some (readReg s r)⟩ } := by
  simp [busAccess, hr, BusAccess.target, h, serveAccess]

theorem guardedWrite_idle {s s' : State} (h : s.engine = .idle) : guardedWrite s s' = s' := by
  simp [guardedWrite, busy_of_idle s h]

theorem guardedWrite_busy {s s' : State} (h : s.busy = true) : guardedWrite s s' = { s with ovr := true } := by
  simp [guardedWrite, h]

/-- A STRBUF write stores the word's byte lanes in its four bytes and leaves the others (10_state.md R40). -/
theorem setStrWord_get (str : Vector Byte 16) (i : Fin 4) (v : Word) (j : Fin 16) :
    (setStrWord str i v)[j] = if j.val / 4 = i.val then v.extractLsb' (8 * (j.val % 4)) 8 else str[j] := by
  simp [setStrWord]

end Sys2Proof.Machine
end

