-- ==== Sys2Proof/Laws/Driver.lean ====
section
/-! SUPPORT. What one turn of the host can do (30_encoding.md R121, R122), and how its calls load a string (R123). -/

namespace Sys2Proof.Machine

/-- A finished program does nothing. -/
theorem hostTurn_finished {d : Driver} (h : d.code[d.pc]? = none) (s : State) : hostTurn d s = (d, s) := by
  simp [hostTurn, h]

/-- A statement of the host's own leaves the block alone. -/
theorem hostTurn_local {d : Driver} {st : Stmt} (h : d.code[d.pc]? = some st) (ha : st.access d.tmp = none) (s : State) :
    hostTurn d s = (d.advance none st, s) := by simp [hostTurn, h, ha]

/-- A statement whose access is answered goes on with the answer. -/
theorem hostTurn_answered {d : Driver} {st : Stmt} {a : BusAccess} {r : Response} {s : State}
    (h : d.code[d.pc]? = some st) (ha : st.access d.tmp = some a) (hr : (busAccess a s).resp = some r) :
    hostTurn d s = (d.advance (some r) st, busAccess a s) := by simp [hostTurn, h, ha, hr]

/-- A statement whose access is not serviced leaves the program where it is (70_reset_and_hazards.md R320). -/
theorem hostTurn_unserviced {d : Driver} {st : Stmt} {a : BusAccess} {s : State} (h : d.code[d.pc]? = some st)
    (ha : st.access d.tmp = some a) (hr : (busAccess a s).resp = none) : hostTurn d s = (d, busAccess a s) := by
  simp [hostTurn, h, ha, hr]

/-- The byte lanes of a word made of four bytes (20_memory.md R88). -/
theorem lane_of_append (a b c d : Byte) (k : Nat) (hk : k < 4) :
    (d ++ c ++ b ++ a : Word).extractLsb' (8 * k) 8 = [a, b, c, d].getD k 0 := by
  apply BitVec.eq_of_getLsbD_eq
  intro i hi
  simp only [BitVec.getLsbD_extractLsb', BitVec.getLsbD_append, hi, decide_true, Bool.true_and]
  interval_cases k <;> simp only [List.getD_cons_zero, List.getD_cons_succ]
  · rw [if_pos (by omega)]; simp
  · rw [if_neg (by omega), if_pos (by omega)]; congr 1; omega
  · rw [if_neg (by omega), if_neg (by omega), if_pos (by omega)]; congr 1; omega
  · rw [if_neg (by omega), if_neg (by omega), if_neg (by omega)]; congr 1; omega

/-- The words a call loads hold the string's units in their byte lanes, and 0 where the string has ended. -/
theorem setStrWord_textWord (str : Vector Byte 16) (units : List Byte) (i : Fin 4) (j : Fin 16) (h : j.val / 4 = i.val) :
    (setStrWord str i (textWord units i))[j] = units.getD j.val 0 := by
  rw [setStrWord_get, if_pos h, textWord, lane_of_append _ _ _ _ _ (Nat.mod_lt _ (by omega))]
  obtain ⟨k, hk, hj⟩ : ∃ k < 4, j.val = 4 * i.val + k := ⟨j.val % 4, Nat.mod_lt _ (by omega), by omega⟩
  rw [show j.val % 4 = k by omega, hj]
  interval_cases k <;> rfl

end Sys2Proof.Machine
end

