-- ==== Sys2Proof/Laws/Meanings.lean ====
section
/-! SUPPORT. One lemma for each command: what its meaning commits when its checks pass and its words are there. A proof about a
command starts from its lemma here and from the lemmas of Laws/Ops.lean for the other cases. -/

namespace Sys2Proof.Machine

/-! The body lengths a decoder accepts, as the test its meaning makes and as the list its rule gives (41_hex.md R164 to
R168). -/

theorem hex2num_lengths (n : Nat) :
    (fun n => decide (1 ≤ n ∧ n ≤ 13)) n = true ↔ n ∈ [1, 2, 3, 4, 5, 6, 7, 8, 9, 10, 11, 12, 13] := by simp; omega

theorem hex2numFast_lengths (n : Nat) :
    (fun n => decide (1 ≤ n ∧ n ≤ 7)) n = true ↔ n ∈ [1, 2, 3, 4, 5, 6, 7] := by simp; omega

theorem hex2rgb_lengths (n : Nat) : (fun n => [3, 4, 6].contains n) n = true ↔ n ∈ [3, 4, 6] := by simp

theorem hex2rgba_lengths (n : Nat) : (fun n => [3, 4, 6, 8].contains n) n = true ↔ n ∈ [3, 4, 6, 8] := by simp

theorem packRgb_commits {s : State} (h : ¬s.ops.channelTooBig 3) :
    exec .packRgb s = finish (s.setRes 0 (packRgbNumber s.ops.args[0].toNat s.ops.args[1].toNat s.ops.args[2].toNat)) := by
  change execPackRgb s = _
  unfold execPackRgb
  exact withRgb_ok h _

theorem packRgba_commits {s : State} (h : ¬s.ops.channelTooBig 4) :
    exec .packRgba s = finish (s.setRes 0 (packRgbaNumber s.ops.args[0].toNat s.ops.args[1].toNat s.ops.args[2].toNat s.ops.args[3].toNat)) := by
  change execPackRgba s = _
  unfold execPackRgba
  exact withRgba_ok h _

theorem unpackRgb_commits {s : State} :
    exec .unpackRgb s = finish (s.setRgb s.ops.args[0].toNat) := rfl

theorem unpackRgba_commits {s : State} :
    exec .unpackRgba s = finish (s.setRgba s.ops.args[0].toNat) := rfl

theorem hex2num_commits {s : State} (h : ¬s.ops.malformed [1, 2, 3, 4, 5, 6, 7, 8, 9, 10, 11, 12, 13]) :
    exec .hex2num s = finish ((s.setRes 0 (foldSafe (stringBody s.ops.text) % 2 ^ 32)).setRes 1
        (foldSafe (stringBody s.ops.text) / 2 ^ 32)) := by
  change execHex2num s = _
  unfold execHex2num
  exact withBody_ok hex2num_lengths h _

theorem hex2numFast_commits {s : State} (h : ¬s.ops.malformed [1, 2, 3, 4, 5, 6, 7]) :
    exec .hex2numFast s = finish (s.setRes 0 (foldFast (stringBody s.ops.text)).toNat) := by
  change execHex2numFast s = _
  unfold execHex2numFast
  exact withBody_ok hex2numFast_lengths h _

theorem num2hex6_commits {s : State} :
    exec .num2hex6 s = finish (s.writeBack (hexText 6 s.ops.args[0].toNat)) := rfl

theorem num2hex8_commits {s : State} :
    exec .num2hex8 s = finish (s.writeBack (hexText 8 s.ops.args[0].toNat)) := rfl

theorem isHex_commits {s : State} :
    exec .isHex s = finish (s.setRes 0 (isHexString s.ops).toNat) := rfl

theorem hex2rgb_commits {s : State} (h : ¬s.ops.malformed [3, 4, 6]) :
    exec .hex2rgb s = finish (s.setRgb (foldFast (stringBody s.ops.text)).toNat) := by
  change execHex2rgb s = _
  unfold execHex2rgb
  exact withBody_ok hex2rgb_lengths h _

theorem hex2rgba_commits {s : State} (h : ¬s.ops.malformed [3, 4, 6, 8]) :
    exec .hex2rgba s = finish (s.setRgba (foldSafe (stringBody s.ops.text))) := by
  change execHex2rgba s = _
  unfold execHex2rgba
  exact withBody_ok hex2rgba_lengths h _

theorem rgb2hex_commits {s : State} (h : ¬s.ops.channelTooBig 3) :
    exec .rgb2hex s = finish (s.writeBack (hexText 6 (packRgbNumber s.ops.args[0].toNat s.ops.args[1].toNat s.ops.args[2].toNat))) := by
  change execRgb2hex s = _
  unfold execRgb2hex
  exact withRgb_ok h _

theorem rgba2hex_commits {s : State} (h : ¬s.ops.channelTooBig 4) :
    exec .rgba2hex s = finish (s.writeBack (hexText 8
        (packRgbaNumber s.ops.args[0].toNat s.ops.args[1].toNat s.ops.args[2].toNat s.ops.args[3].toNat))) := by
  change execRgba2hex s = _
  unfold execRgba2hex
  exact withRgba_ok h _

theorem hsv2rgb_commits {s : State} :
    exec .hsv2rgb s = finish (s.setTriple (hsvCore (s.ops.args[0].toInt % 360).toNat 1
        (clamp s.ops.args[1].toInt 0 100).toNat (clamp s.ops.args[2].toInt 0 100).toNat)) := rfl

theorem rgb2hsv_commits {s : State} (h : ¬s.ops.channelTooBig 3) :
    exec .rgb2hsv s = finish (s.setTriple (rgbCore s.ops.args[0].toNat s.ops.args[1].toNat s.ops.args[2].toNat)) := by
  change execRgb2hsv s = _
  unfold execRgb2hsv
  exact withRgb_ok h _

theorem palEven_commits {s : State} (h : ¬s.ops.badCount s.cfg) :
    exec .palEven s = finish (s.commitPalette s.ops.args[0].toInt.toNat (evenColour s.ops.args[0].toInt.toNat)) := by
  change execPalEven s = _
  unfold execPalEven
  exact withCount_ok h _

theorem palGolden_commits {s : State} (h : ¬s.ops.badCount s.cfg) {u : Word} {l : List Word} (hd : s.drawn = u :: l) :
    exec .palGolden s = finish (s.commitPalette s.ops.args[0].toInt.toNat (goldenColour u)) := by
  change execPalGolden s = _
  unfold execPalGolden
  exact (withCount_ok h _).trans (withDraw_cons hd _)

theorem randRange_commits {s : State} (h : ¬s.ops.args[1].toNat < s.ops.args[0].toNat) {u : Word} {l : List Word}
    (hd : s.drawn = u :: l) :
    exec .randRange s = finish (s.setRes 0 (inRange u s.ops.args[0].toNat s.ops.args[1].toNat)) := by
  change execRandRange s = _
  unfold execRandRange
  exact (if_neg h).trans (withDraw_cons hd _)

theorem randRgb_commits {s : State} {u : Word} {l : List Word} (hd : s.drawn = u :: l) :
    exec .randRgb s = finish (s.setRes 0 (inRange u 0 0xFFFFFF)) := by
  change execRandRgb s = _
  unfold execRandRgb
  exact withDraw_cons hd _

theorem randRgba_commits {s : State} {u : Word} {l : List Word} (hd : s.drawn = u :: l) :
    exec .randRgba s = finish (s.setRes 0 (inRange u 0 0xFFFFFFFF)) := by
  change execRandRgba s = _
  unfold execRandRgba
  exact withDraw_cons hd _

theorem randBrightRgb_commits {s : State} {ur ug ub : Word} {l : List Word} (hd : s.drawn = ur :: ug :: ub :: l) :
    exec .randBrightRgb s = finish (s.setRes 0 (packRgbNumber (inRange ur 128 255) (inRange ug 128 255) (inRange ub 128 255))) := by
  change execRandBrightRgb s = _
  unfold execRandBrightRgb randomRgb
  exact withThreeDraws_cons hd _

theorem randPastelRgb_commits {s : State} {ur ug ub : Word} {l : List Word} (hd : s.drawn = ur :: ug :: ub :: l) :
    exec .randPastelRgb s = finish (s.setRes 0 (packRgbNumber (inRange ur 180 230) (inRange ug 180 230) (inRange ub 180 230))) := by
  change execRandPastelRgb s = _
  unfold execRandPastelRgb randomRgb
  exact withThreeDraws_cons hd _

theorem randBrightRgba_commits {s : State} {ur ug ub ua : Word} {l : List Word} (hd : s.drawn = ur :: ug :: ub :: ua :: l) :
    exec .randBrightRgba s = finish (s.setRes 0 (packRgbaNumber (inRange ur 128 255) (inRange ug 128 255) (inRange ub 128 255)
        (inRange ua 128 255))) := by
  change execRandBrightRgba s = _
  unfold execRandBrightRgba randomRgba
  exact withFourDraws_cons hd _

theorem randPastelRgba_commits {s : State} {ur ug ub ua : Word} {l : List Word} (hd : s.drawn = ur :: ug :: ub :: ua :: l) :
    exec .randPastelRgba s = finish (s.setRes 0 (packRgbaNumber (inRange ur 180 230) (inRange ug 180 230) (inRange ub 180 230)
        (inRange ua 180 230))) := by
  change execRandPastelRgba s = _
  unfold execRandPastelRgba randomRgba
  exact withFourDraws_cons hd _

end Sys2Proof.Machine
end

