-- ==== Sys2Proof/Laws/PerInstr.lean ====
section
/-! SUPPORT. One lemma for each command about its one word (30_encoding.md R111, R112, R113). -/

namespace Sys2Proof.Laws.WordShape

/-- RSV of the command's word is 0, its OPCODE reads back as the command, and the number belongs to the random group 0x50 to
0x56 exactly when the command needs RANDGEN = 1 (R111, R113). -/
def Statement (i : Instr) : Prop :=
  (encode i).extractLsb 31 8 = 0 ∧ commandOfOpcode ((encode i).extractLsb 7 0).toNat = some i ∧
    (i.ofRandomUnit = true ↔ 0x50 ≤ (encode i).toNat)

theorem packRgb : Statement .packRgb := by unfold Statement; decide
theorem packRgba : Statement .packRgba := by unfold Statement; decide
theorem unpackRgb : Statement .unpackRgb := by unfold Statement; decide
theorem unpackRgba : Statement .unpackRgba := by unfold Statement; decide
theorem hex2num : Statement .hex2num := by unfold Statement; decide
theorem hex2numFast : Statement .hex2numFast := by unfold Statement; decide
theorem num2hex6 : Statement .num2hex6 := by unfold Statement; decide
theorem num2hex8 : Statement .num2hex8 := by unfold Statement; decide
theorem isHex : Statement .isHex := by unfold Statement; decide
theorem hex2rgb : Statement .hex2rgb := by unfold Statement; decide
theorem hex2rgba : Statement .hex2rgba := by unfold Statement; decide
theorem rgb2hex : Statement .rgb2hex := by unfold Statement; decide
theorem rgba2hex : Statement .rgba2hex := by unfold Statement; decide
theorem hsv2rgb : Statement .hsv2rgb := by unfold Statement; decide
theorem rgb2hsv : Statement .rgb2hsv := by unfold Statement; decide
theorem palEven : Statement .palEven := by unfold Statement; decide
theorem palGolden : Statement .palGolden := by unfold Statement; decide
theorem randRange : Statement .randRange := by unfold Statement; decide
theorem randRgb : Statement .randRgb := by unfold Statement; decide
theorem randRgba : Statement .randRgba := by unfold Statement; decide
theorem randBrightRgb : Statement .randBrightRgb := by unfold Statement; decide
theorem randPastelRgb : Statement .randPastelRgb := by unfold Statement; decide
theorem randBrightRgba : Statement .randBrightRgba := by unfold Statement; decide
theorem randPastelRgba : Statement .randPastelRgba := by unfold Statement; decide

end Sys2Proof.Laws.WordShape
end

