-- ==== Sys2Proof/Tests/Slice0.lean ====
section
/-! SUPPORT. The model's own tests: which commands a build has, words written out from the encoding, the spec's worked vectors
(95_test_vectors.md), and for each statement with hypotheses a state that meets them. -/

namespace Sys2Proof.Tests

open Sys2Proof Sys2Proof.Machine Sys2Proof.Claims

/-! ### Helpers -/

/-- A state with the word `w` in flight on the given operands and draws, its live registers the same, and RES0 to RES3 set to
0xA0 to 0xA3 so that an unchanged one is seen. -/
def given (w : Nat) (args : List Nat) (strlen : Nat := 0) (words : List Nat := []) (drawn : List Nat := []) : State :=
  let a : Vector Word 4 := Vector.ofFn fun i : Fin 4 => BitVec.ofNat 32 (args.getD i.val 0)
  let t : Vector Byte 16 := Vector.ofFn fun j : Fin 16 => BitVec.ofNat 8 (words.getD (j.val / 4) 0 / 256 ^ (j.val % 4))
  { State.reset with
    args := a, strlen := BitVec.ofNat 8 strlen, str := t, res := #v[0xA0, 0xA1, 0xA2, 0xA3], cmd := BitVec.ofNat 32 w
    engine := .busy (BitVec.ofNat 32 w) ⟨a, BitVec.ofNat 8 strlen, t⟩ (drawn.map (BitVec.ofNat 32)) }

/-- An idle state with every register but STATUS at something other than its reset value. -/
def resting : State :=
  { State.reset with
    args := #v[1, 2, 3, 4], res := #v[5, 6, 7, 8], cmd := 0x10, strlen := 4, palcnt := 2,
    str := Vector.ofFn fun j : Fin 16 => BitVec.ofNat 8 (0x41 + j.val),
    pal := Vector.ofFn fun k : Fin 64 => BitVec.ofNat 24 (0x990000 + k.val) }

/-- The outcome is a next state. -/
def isNext : Outcome → Bool
  | .next _ => true
  | .fault _ => false
  | .refused _ => false

/-- The next state; the reset state where there is none. -/
def got : Outcome → State
  | .next t => t
  | .fault _ => State.reset
  | .refused _ => State.reset

theorem got_eq {o : Outcome} (h : isNext o = true) : o = .next (got o) := by
  cases o with
  | next t => rfl
  | fault r => cases h
  | refused r => cases h

/-- STATUS and RES0 to RES3. -/
def results (o : Outcome) : Nat × List Nat := ((statusWord (got o)).toNat, (got o).res.toList.map fun v => v.toNat)

/-- STATUS, STRLEN and STRBUF0 to STRBUF3. -/
def textOf (o : Outcome) : Nat × Nat × List Nat :=
  ((statusWord (got o)).toNat, (got o).strlen.toNat, [(0 : Fin 4), 1, 2, 3].map fun i => (strWord (got o).str i).toNat)

/-- STATUS, PALCNT and the first `n` palette entries. -/
def colours (n : Nat) (o : Outcome) : Nat × Nat × List Nat :=
  ((statusWord (got o)).toNat, (got o).palcnt.toNat, ((got o).pal.toList.take n).map fun v => v.toNat)

/-- The outcome of a bus access alone. -/
def served (a : BusAccess) (s : State) : Option Response := (busAccess a s).resp

/-! ### Which commands a build has -/

/-- R9, R113: the seven random commands are ill-formed in a build with RANDGEN = 0. -/
theorem test_wf_refuses_random_without_unit :
    ∀ i ∈ [.randRange, .randRgb, .randRgba, .randBrightRgb, .randPastelRgb, .randBrightRgba, .randPastelRgba],
    Instr.wf ⟨63, false⟩ i = false := by decide

theorem test_wf_accepts_the_rest :
    Instr.wf ⟨63, false⟩ .palGolden = true ∧ Instr.wf ⟨0, true⟩ .randRange = true := by decide

/-! ### Words written out bit by bit (30_encoding.md R111, R113) -/

theorem test_words_packing :
    decode Build.standard 0b00000000000000000000000000010000 = .command .packRgb ∧
    decode Build.standard 0b00000000000000000000000000010001 = .command .packRgba ∧
    decode Build.standard 0b00000000000000000000000000010010 = .command .unpackRgb ∧
    decode Build.standard 0b00000000000000000000000000010011 = .command .unpackRgba := by decide

theorem test_words_hex :
    decode Build.standard 0b00000000000000000000000000100000 = .command .hex2num ∧
    decode Build.standard 0b00000000000000000000000000100001 = .command .hex2numFast ∧
    decode Build.standard 0b00000000000000000000000000100010 = .command .num2hex6 ∧
    decode Build.standard 0b00000000000000000000000000100011 = .command .num2hex8 ∧
    decode Build.standard 0b00000000000000000000000000100100 = .command .isHex ∧
    decode Build.standard 0b00000000000000000000000000100101 = .command .hex2rgb ∧
    decode Build.standard 0b00000000000000000000000000100110 = .command .hex2rgba ∧
    decode Build.standard 0b00000000000000000000000000100111 = .command .rgb2hex ∧
    decode Build.standard 0b00000000000000000000000000101000 = .command .rgba2hex := by decide

theorem test_words_hsv :
    decode Build.standard 0b00000000000000000000000000110000 = .command .hsv2rgb ∧
    decode Build.standard 0b00000000000000000000000000110001 = .command .rgb2hsv := by decide

theorem test_words_palette :
    decode Build.standard 0b00000000000000000000000001000000 = .command .palEven ∧
    decode Build.standard 0b00000000000000000000000001000001 = .command .palGolden := by decide

theorem test_words_random :
    decode Build.standard 0b00000000000000000000000001010000 = .command .randRange ∧
    decode Build.standard 0b00000000000000000000000001010001 = .command .randRgb ∧
    decode Build.standard 0b00000000000000000000000001010010 = .command .randRgba ∧
    decode Build.standard 0b00000000000000000000000001010011 = .command .randBrightRgb ∧
    decode Build.standard 0b00000000000000000000000001010100 = .command .randPastelRgb ∧
    decode Build.standard 0b00000000000000000000000001010101 = .command .randBrightRgba ∧
    decode Build.standard 0b00000000000000000000000001010110 = .command .randPastelRgba := by decide

/-- 95_test_vectors.md 2.8 and the last row of 2.7. -/
theorem test_words_illegal :
    decode Build.standard 0x00000000 = .illegal .unassignedOpcode ∧
    decode Build.standard 0x00000014 = .illegal .unassignedOpcode ∧ decode Build.standard 0x00000057 = .illegal .unassignedOpcode ∧
    decode Build.standard 0x00000110 = .illegal .reservedBits ∧ decode Build.standard 0x80000012 = .illegal .reservedBits ∧
    decode ⟨63, false⟩ 0x00000050 = .illegal .randomUnitAbsent ∧ decode ⟨63, false⟩ 0x00000056 = .illegal .randomUnitAbsent := by decide

theorem test_table_word :
    decodeTableWord 32 0x56 = some .randPastelRgba ∧ decodeTableWord 8 0x156 = some .randPastelRgba ∧
    decodeTableWord 32 0x156 = none := by decide

/-! ### Vectors of 95_test_vectors.md, one step each: packing (2.1) -/

theorem test_pack_rgb_123 : results (step (given 0x10 [1, 2, 3] 0 [] [])) = (2, [0x10203, 0xA1, 0xA2, 0xA3]) := by decide

theorem test_pack_rgb_256 :
    results (step (given 0x10 [0x100, 0, 0] 0 [] [])) = (0x36, [0xA0, 0xA1, 0xA2, 0xA3]) := by decide

theorem test_pack_rgba_s13 :
    results (step (given 0x11 [0xC8, 0x64, 0x38, 0xB4] 0 [] [])) = (2, [0xC86438B4, 0xA1, 0xA2, 0xA3]) := by decide

theorem test_pack_rgba_0x100 :
    results (step (given 0x11 [0, 0, 0, 0x100] 0 [] [])) = (0x36, [0xA0, 0xA1, 0xA2, 0xA3]) := by decide

theorem test_unpack_rgb_ignores_31_24 : results (step (given 0x12 [0xFF010203] 0 [] [])) = (2, [1, 2, 3, 0xA3]) := by decide

theorem test_unpack_rgba_s14 : results (step (given 0x13 [0xC86438B4] 0 [] [])) = (2, [0xC8, 0x64, 0x38, 0xB4]) := by decide

/-! ### Hex codec (2.2, 2.3) -/

theorem test_hex2num_13_digits :
    results (step (given 0x20 [] 14 [0x66666623, 0x66666666, 0x66666666, 0x6666] [])) = (2, [0xFFFFFFFF, 0xFFFFF, 0xA2, 0xA3]) := by decide

theorem test_hex2num_17 :
    results (step (given 0x20 [] 17 [0x66666666, 0x66666666, 0x66666666, 0x66666666] [])) = (0x26, [0xA0, 0xA1, 0xA2, 0xA3]) := by decide

theorem test_hex2num_fast_7_digits :
    results (step (given 0x21 [] 7 [0x66666666, 0x666666] [])) = (2, [0xFFFFFFF, 0xA1, 0xA2, 0xA3]) := by decide

theorem test_hex2num_fast_8_digits :
    results (step (given 0x21 [] 8 [0x66666666, 0x66666666] [])) = (0x26, [0xA0, 0xA1, 0xA2, 0xA3]) := by decide

theorem test_num2hex6_zero_fill :
    textOf (step (given 0x22 [0xFF123456] 14 [0x66666623, 0x66666666, 0x66666666, 0x6666])) = (2, 7, [0x33323123, 0x363534, 0, 0]) := by decide

theorem test_num2hex8 :
    textOf (step (given 0x23 [0xC86438] 14 [0x66666623, 0x66666666, 0x66666666, 0x6666])) = (2, 9, [0x63303023, 0x33343638, 0x38, 0]) := by decide

theorem test_ishex_abcd : results (step (given 0x24 [] 5 [0x63626123, 0x64] [])) = (2, [1, 0xA1, 0xA2, 0xA3]) := by decide

theorem test_ishex_no_hash :
    results (step (given 0x24 [] 6 [0x31636261, 0x3332] [])) = (2, [0, 0xA1, 0xA2, 0xA3]) := by decide

theorem test_hex2rgb_abc :
    results (step (given 0x25 [] 4 [0x43424123, 0x66666666] [])) = (2, [0, 0xA, 0xBC, 0xA3]) := by decide

theorem test_hex2rgb_8_digits :
    results (step (given 0x25 [] 9 [0x36386323, 0x62383334, 0x34] [])) = (0x26, [0xA0, 0xA1, 0xA2, 0xA3]) := by decide

theorem test_hex2rgba_8_digits :
    results (step (given 0x26 [] 9 [0x36386323, 0x62383334, 0x34] [])) = (2, [0xC8, 0x64, 0x38, 0xB4]) := by decide

theorem test_hex2rgba_5_digits :
    results (step (given 0x26 [] 6 [0x62316123, 0x6332] [])) = (0x26, [0xA0, 0xA1, 0xA2, 0xA3]) := by decide

theorem test_rgb2hex :
    textOf (step (given 0x27 [0xC8, 0x64, 0x38] 14 [0x66666623, 0x66666666, 0x66666666, 0x6666])) = (2, 7, [0x36386323, 0x383334, 0, 0]) := by decide

theorem test_rgb2hex_300 : results (step (given 0x27 [0, 0x12C, 0] 0 [] [])) = (0x36, [0xA0, 0xA1, 0xA2, 0xA3]) := by decide

theorem test_rgba2hex :
    textOf (step (given 0x28 [0xC8, 0x64, 0x38, 0xB4] 14 [0x66666623, 0x66666666, 0x66666666, 0x6666])) = (2, 9, [0x36386323, 0x62383334, 0x34, 0]) := by decide

theorem test_rgba2hex_256 :
    results (step (given 0x28 [0, 0, 0, 0x100] 0 [] [])) = (0x36, [0xA0, 0xA1, 0xA2, 0xA3]) := by decide

/-! ### HSV (2.4) -/

theorem test_hsv2rgb_tie : results (step (given 0x30 [0, 0x16, 0x5A] 0 [] [])) = (2, [0xE6, 0xB3, 0xB3, 0xA3]) := by decide

theorem test_hsv2rgb_most_negative_hue :
    results (step (given 0x30 [0x80000000, 0x64, 0x64] 0 [] [])) = (2, [0, 0x22, 0xFF, 0xA3]) := by decide

theorem test_rgb2hsv_hue_360 :
    results (step (given 0x31 [0xFF, 0, 1] 0 [] [])) = (2, [0x168, 0x64, 0x64, 0xA3]) := by decide

theorem test_rgb2hsv_256 : results (step (given 0x31 [0x100, 0, 0] 0 [] [])) = (0x36, [0xA0, 0xA1, 0xA2, 0xA3]) := by decide

/-! ### Palettes (2.5, 2.6) -/

theorem test_pal_even_7 :
    colours 8 (step (given 0x40 [7])) =
    (2, 7, [0x991F1F, 0x99881F, 0x42991F, 0x1F9965, 0x1F6599, 0x421F99, 0x991F88, 0]) := by decide

theorem test_pal_even_bad_counts :
    colours 1 (step (given 0x40 [0])) = (0x46, 0, [0]) ∧ colours 1 (step (given 0x40 [0xFFFFFFFF])) = (0x46, 0, [0]) ∧
    colours 1 (step (given 0x40 [65])) = (0x46, 0, [0]) := by decide

theorem test_pal_golden_4 :
    colours 5 (step (given 0x41 [4] 0 [] [0])) = (2, 4, [0xA63232, 0x3254A6, 0x75A632, 0xA63297, 0]) := by decide

theorem test_pal_golden_wraps :
    colours 3 (step (given 0x41 [2] 0 [] [0xFFFFFFFF])) = (2, 2, [0xA63232, 0x3254A6, 0]) := by decide

/-! ### Random (2.7) -/

theorem test_rand_range_half :
    results (step (given 0x50 [0xA, 0x14] 0 [] [0x80000000])) = (2, [0xF, 0xA1, 0xA2, 0xA3]) := by decide

theorem test_rand_range_min_above_max :
    results (step (given 0x50 [0x14, 0xA] 0 [] [])) = (0x46, [0xA0, 0xA1, 0xA2, 0xA3]) := by decide

theorem test_rand_rgb : results (step (given 0x51 [] 0 [] [0xC86438B4])) = (2, [0xC86438, 0xA1, 0xA2, 0xA3]) := by decide

theorem test_rand_rgba : results (step (given 0x52 [] 0 [] [0xC86438B4])) = (2, [0xC86438B4, 0xA1, 0xA2, 0xA3]) := by decide

theorem test_rand_bright_rgb :
    results (step (given 0x53 [] 0 [] [0x80000000, 0, 0xFFFFFFFF])) = (2, [0xC080FF, 0xA1, 0xA2, 0xA3]) := by decide

theorem test_rand_pastel_rgb :
    results (step (given 0x54 [] 0 [] [0x80000000, 0, 0xFFFFFFFF])) = (2, [0xCDB4E6, 0xA1, 0xA2, 0xA3]) := by decide

theorem test_rand_bright_rgba :
    results (step (given 0x55 [] 0 [] [0x80000000, 0, 0xFFFFFFFF, 0x80000000])) = (2, [0xC080FFC0, 0xA1, 0xA2, 0xA3]) := by decide

theorem test_rand_pastel_rgba :
    results (step (given 0x56 [] 0 [] [0x80000000, 0, 0xFFFFFFFF, 0x80000000])) = (2, [0xCDB4E6CD, 0xA1, 0xA2, 0xA3]) := by decide

/-- R301, R335: with no word drawn the request is raised and the command stays BUSY. -/
theorem test_rand_rgb_asks :
    (got (step (given 0x51 []))).rngReq = true ∧ (statusWord (got (step (given 0x51 [])))).toNat = 1 := by decide

/-! ### Registers and bus (2.8, 2.9) -/

theorem test_status_w1c :
    [0x2, 0x8, 0xFF, 0].map (fun v => (statusWord (writeStatus v
      { State.reset with done := true, err := true, ovr := true, errcode := .invalidArgument })).toNat)
    = [0x4C, 0x46, 0x44, 0x4E] := by decide

theorem test_bus_rows :
    served (.read 0x000 0b1111) State.reset = some ⟨.okay, some 0x55430007⟩ ∧
    served (.read 0x004 0b1111) State.reset = some ⟨.okay, some 0x140⟩ ∧
    served (.read 0x01C 0b1111) State.reset = some ⟨.error, some 0⟩ ∧
    served (.read 0x050 0b1111) State.reset = some ⟨.error, some 0⟩ ∧
    served (.write 0x041 0b1111 1) State.reset = some ⟨.error, none⟩ ∧
    served (.write 0x040 0b0001 1) State.reset = some ⟨.error, none⟩ ∧
    served (.read 0x1FC 0b1111) resting = some ⟨.okay, some 0x99003F⟩ ∧
    served (.read 0x120 0b1111) { resting with cfg := ⟨7, true⟩ } = some ⟨.error, some 0⟩ := by decide

theorem test_illegal_words_complete :
    [0, 0x14, 0x110, 0x80000012, 0x57, 0xFF].map (fun w => results (step (given w [])))
    = List.replicate 6 (0x16, [0xA0, 0xA1, 0xA2, 0xA3]) := by decide

/-- The example of R123. -/
theorem test_call_numbers :
    callStmts .packRgb (.numbers [200, 100, 56]) =
    [.wr 0x020 (.imm 200), .wr 0x024 (.imm 100), .wr 0x028 (.imm 56), .cmd .packRgb, .wait, .rd 0 0x00C, .rd 1 0x030] := by decide

/-- R123 on a string function, the words of 95_test_vectors.md S4. -/
theorem test_call_text :
    callStmts .hex2rgb (.text [0x23, 0x61, 0x62, 0x63]) =
    [.wr 0x040 (.imm 0x63626123), .wr 0x044 (.imm 0), .wr 0x048 (.imm 0), .wr 0x04C (.imm 0), .wr 0x018 (.imm 4), .cmd .hex2rgb,
      .wait, .rd 0 0x00C, .rd 1 0x030, .rd 2 0x034, .rd 3 0x038] := by decide

/-- R115, R123: the entries below the count, and PALCNT. -/
theorem test_call_palette :
    (callStmts .palEven (.numbers [2])).drop 4 = [.rd 1 0x100, .rd 2 0x104, .rd 3 0x014] := by decide

/-- R123, 41_hex.md R162: a string that is too long is announced by its length. -/
theorem test_call_long_text : (loadText (List.replicate 17 0x66)).getLast? = some (.wr 0x018 (.imm 17)) := by decide

/-- R124. -/
theorem test_wrapper :
    rgbHexStmts .randRgb = [.cmd .randRgb, .wait, .rd 0 0x030, .wr 0x020 (.tmp 0), .cmd .num2hex6, .wait] ++
    [.rd 1 0x018, .rd 2 0x040, .rd 3 0x044, .rd 4 0x048, .rd 5 0x04C] := by decide

/-! ### Witnesses: the hypotheses of each statement can be met -/

theorem witness_StepRunsTheCommandInFlight :
    ∃ s : State, s.engine = .busy 0x10 s.live [] ∧ s.rstN = true ∧
    decode s.cfg 0x10 = .command .packRgb ∧ s.inputs = [] := ⟨given 0x10 [1, 2, 3], by decide⟩

theorem witness_StepRunsTheCommandInFlight_turn :
    ∃ s : State, s.engine = .busy 0x10 s.live [] ∧ s.rstN = true ∧
    decode s.cfg 0x10 = .command .packRgb ∧ s.inputs = .engine :: [] := ⟨{ given 0x10 [1, 2, 3] with inputs := [.engine] }, by decide⟩

theorem witness_PlacedWordRunsNext : decode State.reset.cfg 0x56 = .command .randPastelRgba := by decide

theorem witness_IllegalCommandCompletesWithCodeOne :
    ∃ s : State, s.engine = .busy 0x57 s.live [] ∧ s.rstN = true ∧
    decode s.cfg 0x57 = .illegal .unassignedOpcode ∧ s.inputs = [] := ⟨given 0x57 [], by decide⟩

theorem witness_IllegalCommandCompletesWithCodeOne_turn :
    ∃ s : State, s.engine = .busy 0x110 s.live [] ∧ s.rstN = true ∧
    decode s.cfg 0x110 = .illegal .reservedBits ∧ s.inputs = .engine :: [] := ⟨{ given 0x110 [] with inputs := [.engine] }, by decide⟩

theorem witness_EveryStepKeepsTheInvariant :
    ∃ s t : State, Inv s ∧ step s = .next t ∧ t.rngReq = true := ⟨given 0x51 [], got (step (given 0x51 [])), by decide, got_eq (by decide), by decide⟩

theorem witness_BuildIsFixed :
    ∃ s t : State, step s = .next t ∧ s.rstN = true ∧ s.cfg.palMax = 1 := ⟨{ resting with cfg := ⟨0, false⟩ }, got (step { resting with cfg := ⟨0, false⟩ }), got_eq (by decide), by decide, by decide⟩

theorem witness_CompletionWritesStatus :
    (commandError Build.standard .packRgb (given 0x10 [256]).ops ≠ .none) ∧
    Instr.palGolden.draws ≤ (given 0x41 [64] 0 [] [0]).drawn.length ∧
    commandError Build.standard .palGolden (given 0x41 [64]).ops = .none := by decide

theorem witness_ErrorsArePrecise :
    commandError Build.standard .hex2num (given 0x20 [] 17).ops = .invalidFormat ∧
    commandError Build.standard .rgba2hex (given 0x28 [0, 0, 0, 256]).ops = .outOfRange ∧
    commandError Build.standard .palGolden (given 0x41 [65]).ops = .invalidArgument := by decide

theorem witness_CommandWaitsForItsWords :
    commandError Build.standard .randBrightRgba (given 0x55 []).ops = .none ∧
    (given 0x55 [] 0 [] [1, 2, 3]).drawn.length < Instr.randBrightRgba.draws := by decide

theorem witness_OutputsNotNamedAreUnchanged :
    ∃ s t : State, exec .hsv2rgb s = .next t ∧ (3 : Fin 4) ∉ resultRegisters .hsv2rgb ∧
    writesText .hsv2rgb = false ∧ writesPalette .hsv2rgb = false := ⟨given 0x30 [0, 100, 100], _, got_eq (by decide), by decide, by decide, by decide⟩

theorem witness_CommandsReadOnlyTheirInputs :
    ∃ s s' t t' : State, s ≠ s' ∧ s.cfg = s'.cfg ∧ sameInputs .hex2num s.ops s'.ops ∧ s.drawn = s'.drawn ∧
    Instr.hex2num.draws ≤ s.drawn.length ∧ commandError s.cfg .hex2num s.ops = .none ∧ exec .hex2num s = .next t ∧
    exec .hex2num s' = .next t' := 
  ⟨given 0x20 [7] 1 [0x66], given 0x20 [8] 1 [0x7766], _, _, by decide, by decide,
    by unfold sameInputs; decide, by decide, by decide, by decide, got_eq (by decide), got_eq (by decide)⟩

theorem witness_PackRgbPacksThreeChannels :
    (given 0x10 [255, 255, 255]).ops.args[2].toNat = 255 ∧ (given 0x10 [0, 0, 256]).ops.args[2].toNat = 256 := by decide

theorem witness_PackRgbaPacksFourChannels :
    (∀ k : Fin 4, (given 0x11 [255, 255, 255, 255]).ops.args[k].toNat ≤ 255) ∧
    ∃ k : Fin 4, 255 < (given 0x11 [0, 0, 0, 256]).ops.args[k].toNat := by decide

theorem witness_PackingIsBijective_rgb :
    ∃ s t u v : State, exec .packRgb s = .next t ∧ t.err = false ∧
    u.ops.args[0] = t.res[0] ∧ exec .unpackRgb u = .next v := 
  ⟨given 0x10 [255, 0, 1], _, given 0x12 [0xFF0001], _, got_eq (by decide), by decide, by decide, got_eq (by decide)⟩

theorem witness_PackingIsBijective_rgba :
    ∃ s t u v : State, exec .packRgba s = .next t ∧ t.err = false ∧
    u.ops.args[0] = t.res[0] ∧ exec .unpackRgba u = .next v := 
  ⟨given 0x11 [255, 0, 1, 2], _, given 0x13 [0xFF000102], _, got_eq (by decide), by decide, by decide, got_eq (by decide)⟩

theorem witness_PackingIsBijective_number :
    ∃ s t u v : State, exec .unpackRgb s = .next t ∧ s.ops.args[0].toNat < 2 ^ 24 ∧
    u.ops.args[0] = t.res[0] ∧ u.ops.args[1] = t.res[1] ∧ u.ops.args[2] = t.res[2] ∧ exec .packRgb u = .next v := 
  ⟨given 0x12 [0xFFFFFF], _, given 0x10 [255, 255, 255], _, got_eq (by decide), by decide, by decide, by decide, by decide, got_eq (by decide)⟩

theorem witness_PackingIsBijective_number_rgba :
    ∃ s t u v : State, exec .unpackRgba s = .next t ∧ u.ops.args = t.res ∧ exec .packRgba u = .next v := 
  ⟨given 0x13 [0xFF800001], _, given 0x11 [255, 128, 0, 1], _, got_eq (by decide), by decide, got_eq (by decide)⟩

theorem witness_Hex2numFoldsUpToThirteenDigits :
    ¬(given 0x20 [] 13 [0x66666666, 0x66666666, 0x66666666, 0x66]).ops.malformed [1, 2, 3, 4, 5, 6, 7, 8, 9, 10, 11, 12, 13] ∧
    (given 0x20 [] 14 [0x66666666, 0x66666666, 0x66666666, 0x6666]).ops.malformed [1, 2, 3, 4, 5, 6, 7, 8, 9, 10, 11, 12, 13] := by decide

theorem witness_Hex2numFastFoldsUpToSevenDigits :
    ¬(given 0x21 [] 7 [0x66666666, 0x666666]).ops.malformed [1, 2, 3, 4, 5, 6, 7] ∧
    (given 0x21 [] 8 [0x66666666, 0x66666666]).ops.malformed [1, 2, 3, 4, 5, 6, 7] := by decide

theorem witness_Hex2rgbReadsOneNumber :
    ¬(given 0x25 [] 7 [0x66666623, 0x666666]).ops.malformed [3, 4, 6] ∧ (given 0x21 [] 7 [0x66666666, 0x666666]).ops.malformed [3, 4, 6] := by decide

theorem witness_Hex2rgbaReadsOneNumber :
    ¬(given 0x21 [] 8 [0x66666666, 0x66666666]).ops.malformed [3, 4, 6, 8] ∧ (given 0x21 [] 7 [0x66666666, 0x666666]).ops.malformed [3, 4, 6, 8] := by decide

theorem witness_IsHexValidatesTheShape :
    hexDigitCode 0x39 ∧ hexDigitCode 0x41 ∧ hexDigitCode 0x46 ∧ hexDigitCode 0x66 ∧ ¬hexDigitCode 0x47 ∧
    ¬hexDigitCode 0x3A ∧ isHexString (given 0x24 [] 9 [0x66666623, 0x66666666, 0x66]).ops = true ∧
    isHexString (given 0x24 [] 17 [0x66666623, 0x66666666, 0x66666666, 0x66666666]).ops = false := by decide

theorem witness_ChannelEncodersWriteTheirText :
    (given 0x27 [255, 255, 255]).ops.args[1].toNat = 255 ∧ (given 0x27 [0, 256, 0]).ops.args[1].toNat = 256 ∧
    (∀ k : Fin 4, (given 0x28 [255, 255, 255, 255]).ops.args[k].toNat ≤ 255) ∧
    ∃ k : Fin 4, 255 < (given 0x28 [256]).ops.args[k].toNat := by decide

theorem witness_Num2hex8ThenHex2numReturnsTheNumber :
    ∃ s t u v : State, exec .num2hex8 s = .next t ∧ u.ops.strlen = t.strlen ∧ u.ops.str = t.str ∧
    exec .hex2num u = .next v := 
  ⟨given 0x23 [0xFFFFFFFF], _, given 0x20 [] 9 [0x66666623, 0x66666666, 0x66], _, got_eq (by decide), by decide, by decide, got_eq (by decide)⟩

theorem witness_SixDigitStringsNormalise_hex2num :
    ∃ s t u v : State, (stringBody s.ops.text).length = 6 ∧ s.ops.strlen.toNat ≤ 16 ∧
    (∀ c ∈ stringBody s.ops.text, digitValue c ≤ 15) ∧ exec .num2hex6 u = .next v ∧
    exec .hex2num s = .next t ∧ u.ops.args[0] = t.res[0] := 
  ⟨given 0x20 [] 7 [0x62314123, 0x336332], _, given 0x22 [0xA1B2C3], _, by decide, by decide, by decide, got_eq (by decide), got_eq (by decide), by decide⟩

theorem witness_SixDigitStringsNormalise_hex2numFast :
    ∃ s t u v : State, (stringBody s.ops.text).length = 6 ∧ s.ops.strlen.toNat ≤ 16 ∧
    (∀ c ∈ stringBody s.ops.text, digitValue c ≤ 15) ∧ exec .num2hex6 u = .next v ∧
    exec .hex2numFast s = .next t ∧ u.ops.args[0] = t.res[0] := 
  ⟨given 0x21 [] 6 [0x32623141, 0x3363], _, given 0x22 [0xA1B2C3], _, by decide, by decide, by decide, got_eq (by decide), got_eq (by decide), by decide⟩

theorem witness_SixDigitStringsNormalise_hex2rgb :
    ∃ s t p q u v : State, (stringBody s.ops.text).length = 6 ∧ s.ops.strlen.toNat ≤ 16 ∧
    (∀ c ∈ stringBody s.ops.text, digitValue c ≤ 15) ∧ exec .num2hex6 u = .next v ∧ exec .hex2rgb s = .next t ∧
    (∀ k : Fin 4, k.val < 3 → p.ops.args[k] = t.res[k]) ∧ exec .packRgb p = .next q ∧ u.ops.args[0] = q.res[0] := 
  ⟨given 0x20 [] 7 [0x62314123, 0x336332], _, given 0x10 [0xA1, 0xB2, 0xC3], _, given 0x22 [0xA1B2C3], _, by decide, by decide, by decide, got_eq (by decide), got_eq (by decide), by decide, got_eq (by decide),
    by decide⟩

theorem witness_IsHexAndTheDecodersAgree :
    (isHexAnswersOne (given 0x24 [] 4 [0x63626123]) ∧ (given 0x24 [] 4 [0x63626123]).ops.text.head? = some 0x23) ∧
    succeeds .hex2rgb (given 0x25 [] 3 [0x636261]) ∧ ¬isHexAnswersOne (given 0x25 [] 3 [0x636261]) := by
  refine ⟨⟨⟨_, got_eq (by decide), by decide⟩, by decide⟩, ⟨_, got_eq (by decide), ?_⟩, ?_⟩
  · exact ⟨rfl, rfl, rfl, rfl, rfl, ⟨rfl, rfl, rfl, rfl, rfl, rfl, rfl, rfl⟩⟩
  · rintro ⟨t, h, h1⟩
    rw [got_eq (o := exec .isHex (given 0x25 [] 3 [0x636261])) (by decide)] at h
    cases h
    exact absurd h1 (by decide)

theorem witness_Rgb2hsvRoundsTheExactFormulas :
    (given 0x31 [255, 255, 255]).ops.args[0].toNat = 255 ∧ (given 0x31 [256]).ops.args[0].toNat = 256 := by decide

theorem witness_HsvResultsStayInRange :
    ∃ s t u : State, exec .hsv2rgb s = .next t ∧ exec .rgb2hsv s = .next u ∧ u.err = false ∧
    s.ops.args[0] = 255 ∧ s.ops.args[1] = 0 ∧ s.ops.args[2] = 1 := 
  ⟨given 0x31 [255, 0, 1], _, _, got_eq (by decide), got_eq (by decide), by decide⟩

theorem witness_PalEvenSweepsTheHue :
    ¬(given 0x40 [64]).ops.badCount Build.standard ∧ (given 0x40 [65]).ops.badCount Build.standard ∧
    (given 0x40 [0]).ops.badCount Build.standard ∧ ¬(given 0x40 [1]).ops.badCount ⟨0, true⟩ := by decide

theorem witness_PalGoldenStepsByTheGoldenRatio :
    ¬(given 0x41 [64]).ops.badCount Build.standard ∧ (given 0x41 [64] 0 [] [5]).drawn = 5 :: [] ∧
    (given 0x41 [0x80000000]).ops.badCount Build.standard := by decide

theorem witness_EvenPaletteOfEightRecoversItsHues :
    ∃ s t u v : State, s.ops.args[0] = 8 ∧ s.cfg.palMax ≥ 8 ∧ exec .palEven s = .next t ∧
    u.ops.args[0] = (t.pal[7] >>> 16).setWidth 32 &&& 0xFF ∧ u.ops.args[1] = (t.pal[7] >>> 8).setWidth 32 &&& 0xFF ∧
    u.ops.args[2] = t.pal[7].setWidth 32 &&& 0xFF ∧ exec .rgb2hsv u = .next v := 
  ⟨given 0x40 [8], _, given 0x31 [153, 31, 122], _, by decide, by decide, got_eq (by decide), by decide, by decide, by decide, got_eq (by decide)⟩

theorem witness_RandRangeMapsItsDraw :
    (given 0x50 [7, 7] 0 [] [0]).ops.args[0].toNat ≤ (given 0x50 [7, 7] 0 [] [0]).ops.args[1].toNat ∧
    (given 0x50 [7, 7] 0 [] [0]).drawn = 0 :: [] ∧ (given 0x50 [0, 0xFFFFFFFF] 0 [] [0xFFFFFFFF]).drawn = 0xFFFFFFFF :: [] ∧
    (given 0x50 [8, 7]).ops.args[1].toNat < (given 0x50 [8, 7]).ops.args[0].toNat := by decide

theorem witness_RandRgbAndRgbaTakeTheDraw : (given 0x51 [] 0 [] [0xFFFFFFFF]).drawn = 0xFFFFFFFF :: [] := by decide

theorem witness_BrightAndPastelRgbTakeThreeDraws :
    (given 0x53 [] 0 [] [0, 1, 0xFFFFFFFF]).drawn = 0 :: 1 :: 0xFFFFFFFF :: [] := by decide

theorem witness_BrightAndPastelRgbaTakeFourDraws :
    (given 0x55 [] 0 [] [0, 1, 2, 0xFFFFFFFF]).drawn = 0 :: 1 :: 2 :: 0xFFFFFFFF :: [] := by decide

theorem witness_RandomResultsStayInRange_randRgb :
    ∃ s t : State, Inv s ∧ Instr.randRgb.draws ≤ s.drawn.length ∧ exec .randRgb s = .next t := 
  ⟨given 0x51 [] 0 [] [0xFFFFFFFF], _, by decide, by decide, got_eq (by decide)⟩

theorem witness_RandomResultsStayInRange_randBrightRgb :
    ∃ s t : State, Inv s ∧ Instr.randBrightRgb.draws ≤ s.drawn.length ∧ exec .randBrightRgb s = .next t := 
  ⟨given 0x53 [] 0 [] [0, 1, 0xFFFFFFFF], _, by decide, by decide, got_eq (by decide)⟩

theorem witness_RandomResultsStayInRange_randPastelRgb :
    ∃ s t : State, Inv s ∧ Instr.randPastelRgb.draws ≤ s.drawn.length ∧ exec .randPastelRgb s = .next t := 
  ⟨given 0x54 [] 0 [] [0, 1, 0xFFFFFFFF], _, by decide, by decide, got_eq (by decide)⟩

theorem witness_RandomResultsStayInRange_randBrightRgba :
    ∃ s t : State, Inv s ∧ Instr.randBrightRgba.draws ≤ s.drawn.length ∧ exec .randBrightRgba s = .next t := 
  ⟨given 0x55 [] 0 [] [0, 1, 2, 0xFFFFFFFF], _, by decide, by decide, got_eq (by decide)⟩

theorem witness_RandomResultsStayInRange_randPastelRgba :
    ∃ s t : State, Inv s ∧ Instr.randPastelRgba.draws ≤ s.drawn.length ∧ exec .randPastelRgba s = .next t := 
  ⟨given 0x56 [] 0 [] [0, 1, 2, 0xFFFFFFFF], _, by decide, by decide, got_eq (by decide)⟩

theorem witness_RandomResultsStayInRange_randRange :
    ∃ s t : State, Inv s ∧ Instr.randRange.draws ≤ s.drawn.length ∧ exec .randRange s = .next t ∧ t.err = false := 
  ⟨given 0x50 [3, 9] 0 [] [0xFFFFFFFF], _, by decide, by decide, got_eq (by decide), by decide⟩

theorem witness_WordIsTakenOnlyOnRequest :
    ∃ s : State, s.inputs = .rng 5 :: [] ∧ s.engine = .busy 0x51 s.live [] ∧ s.rngReq = true ∧ s.rstN = true := ⟨{ given 0x51 [] with rngReq := true, inputs := [.rng 5] }, by decide⟩

theorem witness_WordIsTakenOnlyOnRequest_ignored :
    ∃ s : State, s.inputs = .rng 5 :: [] ∧ s.engine = .idle ∧ s.rngReq = false := ⟨{ resting with inputs := [.rng 5] }, by decide⟩

theorem witness_SilentSourceKeepsTheCommandInFlight :
    ∃ s t : State, s.engine = .busy 0x51 s.live [] ∧ s.rstN = true ∧ decode s.cfg 0x51 = .command .randRgb ∧
    commandError s.cfg .randRgb s.ops = .none ∧ s.drawn.length < Instr.randRgb.draws ∧
    (∀ e ∈ s.inputs, wordOrReset e = false) ∧ s.inputs ≠ [] ∧ Sys2Proof.core.run 3 s = .next t := 
  ⟨{ given 0x51 [] with inputs := [.bus (.write 0x00C 0b1111 2), .engine] }, _, by decide, by decide, by decide, by decide,
    by decide, by decide, by decide, got_eq (o := Sys2Proof.core.run 3 _) (by decide)⟩

theorem witness_ReadsHaveNoSideEffect :
    ∃ s : State, s.inputs = .bus (.read 0x1FC 0b1111) :: [] := ⟨{ resting with inputs := [.bus (.read 0x1FC 0b1111)] }, by decide⟩

theorem witness_IllegalAccessesAnswerError :
    resting.rstN = true ∧ (0b1110 : BitVec 4) ≠ 0b1111 ∧ (0x003 : Offset).toNat % 4 ≠ 0 ∧ (0x01C : Offset).toNat = 0x01C ∧
    (0x050 ≤ (0x0FF : Offset).toNat ∧ (0x0FF : Offset).toNat ≤ 0x0FF) ∧
    0x100 + 4 * ({ resting with cfg := ⟨0, true⟩ } : State).cfg.palMax ≤ (0x104 : Offset).toNat := by decide

theorem witness_ReadOnlyWritesAreIgnored :
    resting.rstN = true ∧ (∀ off ∈ ([0x000, 0x004, 0x014, 0x030, 0x03C, 0x100, 0x1FC] : List Offset), off.toNat % 4 = 0) ∧
    (0x1FC : Offset).toNat < 0x100 + 4 * resting.cfg.palMax := by decide

theorem witness_ReadsReturnTheRegisterMap :
    resting.rstN = true ∧ (0x02C : Offset).toNat = 0x020 + 4 * (3 : Fin 4).val ∧ (0x04C : Offset).toNat = 0x040 + 4 * (3 : Fin 4).val ∧
    (0x03C : Offset).toNat = 0x030 + 4 * (3 : Fin 4).val ∧ (63 : Fin 64).val < resting.cfg.palMax ∧
    (0x1FC : Offset).toNat = 0x100 + 4 * (63 : Fin 64).val := by decide

theorem witness_OperandWritesStoreWhileIdle : resting.rstN = true ∧ resting.engine = .idle := by decide

theorem witness_WritesWhileBusyAreDropped :
    (given 0x10 []).rstN = true ∧ (given 0x10 []).busy = true ∧
    ∀ off ∈ ([0x010, 0x018, 0x020, 0x02C, 0x040, 0x04C] : List Offset), off.toNat % 4 = 0 := by decide

theorem witness_CmdWriteIsAcceptedWhileIdle :
    resting.rstN = true ∧ resting.engine = .idle ∧ (given 0x10 []).rstN = true ∧ (given 0x10 []).busy = true := by decide

theorem witness_CtrlWriteResetsOrSetsTheEnable :
    resting.rstN = true ∧ (3 : Word).getLsbD 1 = true ∧ (1 : Word).getLsbD 1 = false := by decide

theorem witness_StatusWriteClearsDoneAndOvr : ({ resting with done := true, ovr := true } : State).rstN = true := by decide

theorem witness_StatusBitsAreSetOnlyAsStated :
    ∃ s t : State, step s = .next t ∧ s.done = false ∧ t.done = true ∧ s.err = false ∧ t.err = true ∧ t.errcode ≠ .none ∧
    t.errcode ≠ s.errcode := ⟨given 0x10 [256], _, got_eq (by decide), by decide⟩

theorem witness_StatusBitsAreSetOnlyAsStated_busy :
    ∃ s t : State, step s = .next t ∧ s.busy = false ∧ t.busy = true := ⟨{ resting with inputs := [.bus (.write 0x010 0b1111 0x10)] }, _, got_eq (by decide), by decide⟩

theorem witness_StatusBitsAreSetOnlyAsStated_ovr :
    ∃ s t : State, step s = .next t ∧ s.ovr = false ∧ t.ovr = true := ⟨{ given 0x10 [] with inputs := [.bus (.write 0x04C 0b1111 1)] }, _, got_eq (by decide), by decide⟩

theorem witness_InterruptRisesOnlyAsStated :
    ∃ s t s' t' : State, (step s = .next t ∧ s.irq = false ∧ t.irq = true) ∧ s.irqEn = true ∧
    (step s' = .next t' ∧ s'.irq = false ∧ t'.irq = true) ∧ s'.irqEn = false := 
  ⟨{ given 0x10 [] with irqEn := true }, _, { resting with done := true, inputs := [.bus (.write 0x008 0b1111 1)] }, _,
    ⟨got_eq (by decide), by decide⟩, by decide, ⟨got_eq (by decide), by decide⟩, by decide⟩

theorem witness_ResultsChangeOnlyAtCompletionOrReset :
    ∃ s t : State, step s = .next t ∧ ¬(t.res = s.res ∧ SamePalette s t) := ⟨given 0x10 [], _, got_eq (by decide), fun h => absurd h.1 (by decide)⟩

theorem witness_OperandsHoldWhileBusy :
    ∃ s t : State, s.engine = .busy 0x51 s.live [] ∧ step s = .next t ∧ t.engine = .busy 0x51 s.live [9] := 
  ⟨{ given 0x51 [] with rngReq := true, inputs := [.rng 9] }, _, by decide, got_eq (by decide), by decide⟩

theorem witness_HardwareResetHoldsEverything :
    ∃ s s' s'' : State, s.inputs = .rstN false :: [] ∧
    (s'.inputs = .bus (.write 0x010 0b1111 0x10) :: [] ∧ s'.rstN = false) ∧ s''.inputs = .rstN true :: [] := 
  ⟨{ given 0x51 [] with inputs := [.rstN false] },
    { State.reset with rstN := false, inputs := [.bus (.write 0x010 0b1111 0x10)] },
    { State.reset with rstN := false, inputs := [.rstN true] }, by decide⟩

theorem witness_ResetReadsAreZero :
    (0x1FC : Offset).toNat % 4 = 0 ∧ (0x1FC : Offset).toNat ≠ 0x01C ∧
    ¬(0x050 ≤ (0x1FC : Offset).toNat ∧ (0x1FC : Offset).toNat ≤ 0x0FF) := by decide

theorem witness_WindowIsFiveHundredTwelveBytes : (7 : Nat) < 8 ∧ (8 : Nat) + 512 ≤ 520 := by decide

theorem witness_HostStatementsMakeTheirTransactions :
    (⟨[.cmd .packRgb, .wait], 0, Vector.replicate 128 0⟩ : Driver).code[0]? = some (.cmd .packRgb) ∧
    (⟨[.cmd .packRgb, .wait], 1, Vector.replicate 128 0⟩ : Driver).code[1]? = some .wait ∧
    resting.rstN = true ∧ resting.engine = .idle := by decide

end Sys2Proof.Tests
end

section
/-! PROOFS. Which bus addresses reach the register window (00_scope.md R8, 20_memory.md R85). -/

namespace Sys2Proof.Machine

/-- An address that lies one 9-bit offset above the base reaches the window at that offset. -/
@[simp] theorem windowOffset_base_add (base : Nat) (off : Offset) :
    windowOffset base (base + off.toNat) = some off := by
  have inside : base ≤ base + off.toNat ∧ base + off.toNat < base + 512 :=
    ⟨Nat.le_add_right _ _, Nat.add_lt_add_left off.isLt base⟩
  rw [windowOffset, if_pos inside, Nat.add_sub_cancel_left, BitVec.ofNat_toNat, BitVec.setWidth_eq]

/-- An address misses the window exactly when it lies below the base or past its 512 bytes. -/
theorem windowOffset_eq_none_iff {base addr : Nat} :
    windowOffset base addr = none ↔ addr < base ∨ base + 512 ≤ addr := by
  have outside : ¬(base ≤ addr ∧ addr < base + 512) ↔ addr < base ∨ base + 512 ≤ addr := by omega
  rw [← outside, windowOffset, ite_eq_right_iff]
  simp

/-- Settles O59: every offset lies inside the window at BASE, and every other address misses the window. -/
theorem windowIsFiveHundredTwelveBytes : Obligations.WindowIsFiveHundredTwelveBytes :=
  ⟨fun off => windowOffset_base_add Config.base off, fun _ _ outside => windowOffset_eq_none_iff.mpr outside⟩

end Sys2Proof.Machine
end

section
/-! PROOFS. What a command's turn ends in, with the check or the draw that decides it: the error its operands call for, a
word it still lacks, or its outputs (60_exceptions.md R280, R290, R301; 70_reset_and_hazards.md R330). -/

namespace Sys2Proof.Machine

/-- What a command's outputs may change: nothing that no completion changes, and of the palette either nothing or a commit of
at most PAL_MAX colours (30_encoding.md R115, 43_palette.md R230). -/
structure CommandOutput (s s' : State) : Prop where
  outside : SameOutside s s'
  palette : SamePalette s s' ∨ ∃ count colour, count ≤ s.cfg.palMax ∧ s' = s.commitPalette count colour

theorem commandOutput_setRes (s : State) (i : Fin 4) (v : Nat) : CommandOutput s (s.setRes i v) :=
  ⟨sameOutside_setRes .., .inl ⟨rfl, rfl⟩⟩

theorem commandOutput_setRes_setRes (s : State) (i j : Fin 4) (v w : Nat) :
    CommandOutput s ((s.setRes i v).setRes j w) :=
  ⟨sameOutside_trans (sameOutside_setRes ..) (sameOutside_setRes ..), .inl ⟨rfl, rfl⟩⟩

theorem commandOutput_setRgb (s : State) (n : Nat) : CommandOutput s (s.setRgb n) :=
  ⟨sameOutside_setRgb .., .inl ⟨by simp [State.setRgb], by simp [State.setRgb]⟩⟩

theorem commandOutput_setRgba (s : State) (n : Nat) : CommandOutput s (s.setRgba n) :=
  ⟨sameOutside_setRgba .., .inl ⟨by simp [State.setRgba], by simp [State.setRgba]⟩⟩

theorem commandOutput_setTriple (s : State) (t : Nat × Nat × Nat) : CommandOutput s (s.setTriple t) :=
  ⟨sameOutside_setTriple .., .inl ⟨by simp [State.setTriple], by simp [State.setTriple]⟩⟩

theorem commandOutput_writeBack (s : State) (t : List Byte) : CommandOutput s (s.writeBack t) :=
  ⟨sameOutside_writeBack .., .inl ⟨rfl, rfl⟩⟩

theorem commandOutput_commitPalette {s : State} {count : Nat} (hmax : count ≤ s.cfg.palMax) (colour : Nat → Nat) :
    CommandOutput s (s.commitPalette count colour) :=
  ⟨sameOutside_commitPalette .., .inr ⟨count, colour, hmax, rfl⟩⟩

/-- How the turn of a command ends whose operands call for the error `e` and which draws `n` words: with the error,
waiting for a word, or with its outputs committed. -/
inductive TurnEnds (s : State) (e : ErrCode) (n : Nat) : Outcome → Prop where
  | fails (he : e ≠ .none) : TurnEnds s e n (.next (failedWith e s))
  | waits (he : e = .none) (hd : s.drawn.length < n) : TurnEnds s e n (.next { s with rngReq := true })
  | commits (he : e = .none) (hd : n ≤ s.drawn.length) (s' : State) (output : CommandOutput s s') :
    TurnEnds s e n (.next (complete .none s'))

variable {s : State} {n : Nat}

theorem turnEnds_finish {s' : State} (output : CommandOutput s s') (hd : n ≤ s.drawn.length) :
    TurnEnds s .none n (finish s') := .commits rfl hd s' output

/-- A check that raises `c` when `p` holds and goes on with `o'` otherwise. -/
theorem turnEnds_check {p : Prop} [Decidable p] {c : ErrCode} {o o' : Outcome} (hc : c ≠ .none)
    (raises : p → o = .next (failedWith c s)) (passes : ¬p → o = o') (goesOn : ¬p → TurnEnds s .none n o') :
    TurnEnds s (if p then c else .none) n o := by
  by_cases hp : p
  · rw [if_pos hp, raises hp]; exact .fails hc
  · rw [if_neg hp, passes hp]; exact goesOn hp

theorem turnEnds_withRgb {k : Nat → Nat → Nat → Outcome} (h : ∀ r g b, TurnEnds s .none n (k r g b)) :
    TurnEnds s (if s.ops.channelTooBig 3 then .outOfRange else .none) n (withRgb s k) :=
  turnEnds_check (by decide) (withRgb_raise · k) (withRgb_ok · k) fun _ => h ..

theorem turnEnds_withRgba {k : Nat → Nat → Nat → Nat → Outcome} (h : ∀ r g b a, TurnEnds s .none n (k r g b a)) :
    TurnEnds s (if s.ops.channelTooBig 4 then .outOfRange else .none) n (withRgba s k) :=
  turnEnds_check (by decide) (withRgba_raise · k) (withRgba_ok · k) fun _ => h ..

theorem turnEnds_withBody {l : List Nat} {p : Nat → Bool} (hl : ∀ n, p n = true ↔ n ∈ l) {k : List Byte → Outcome}
    (h : ∀ b, TurnEnds s .none n (k b)) :
    TurnEnds s (if s.ops.malformed l then .invalidFormat else .none) n (withBody s p k) :=
  turnEnds_check (by decide) (withBody_raise hl · k) (withBody_ok hl · k) fun _ => h _

theorem turnEnds_withCount {k : Nat → Outcome} (h : ∀ count, count ≤ s.cfg.palMax → TurnEnds s .none n (k count)) :
    TurnEnds s (if s.ops.badCount s.cfg then .invalidArgument else .none) n (withCount s k) :=
  turnEnds_check (by decide) (withCount_raise · k) (withCount_ok · k) fun hp =>
    have ⟨_, hmax, _⟩ := count_bounds hp
    h _ hmax

theorem turnEnds_withDraw {k : Word → Outcome} (h : ∀ u, 1 ≤ s.drawn.length → TurnEnds s .none 1 (k u)) :
    TurnEnds s .none 1 (withDraw s k) := by
  by_cases hd : s.drawn.length < 1
  · rw [withDraw_wait hd]; exact .waits rfl hd
  · obtain ⟨u, l, hl⟩ := one_le_length (not_lt.mp hd)
    rw [withDraw_cons hl]; exact h u (not_lt.mp hd)

theorem turnEnds_randomRgb {lo hi : Nat} : TurnEnds s .none 3 (randomRgb lo hi s) := by
  unfold randomRgb
  by_cases hd : s.drawn.length < 3
  · rw [withThreeDraws_wait hd]; exact .waits rfl hd
  · obtain ⟨ur, ug, ub, l, hl⟩ := three_le_length (not_lt.mp hd)
    rw [withThreeDraws_cons hl]
    exact turnEnds_finish (commandOutput_setRes ..) (not_lt.mp hd)

theorem turnEnds_randomRgba {lo hi : Nat} : TurnEnds s .none 4 (randomRgba lo hi s) := by
  unfold randomRgba
  by_cases hd : s.drawn.length < 4
  · rw [withFourDraws_wait hd]; exact .waits rfl hd
  · obtain ⟨ur, ug, ub, ua, l, hl⟩ := four_le_length (not_lt.mp hd)
    rw [withFourDraws_cons hl]
    exact turnEnds_finish (commandOutput_setRes ..) (not_lt.mp hd)

/-- Every command fails exactly on the operands that call for an error, waits exactly while it lacks a word, and otherwise
commits its outputs. -/
theorem exec_turnEnds (i : Instr) (s : State) : TurnEnds s (commandError s.cfg i s.ops) i.draws (exec i s) := by
  have plain {s' : State} (output : CommandOutput s s') : TurnEnds s .none 0 (finish s') :=
    turnEnds_finish output (Nat.zero_le _)
  cases i with
  | packRgb => exact turnEnds_withRgb fun _ _ _ => plain (commandOutput_setRes ..)
  | packRgba => exact turnEnds_withRgba fun _ _ _ _ => plain (commandOutput_setRes ..)
  | unpackRgb => rw [unpackRgb_commits]; exact plain (commandOutput_setRgb ..)
  | unpackRgba => rw [unpackRgba_commits]; exact plain (commandOutput_setRgba ..)
  | hex2num => exact turnEnds_withBody hex2num_lengths fun _ => plain (commandOutput_setRes_setRes ..)
  | hex2numFast => exact turnEnds_withBody hex2numFast_lengths fun _ => plain (commandOutput_setRes ..)
  | num2hex6 => rw [num2hex6_commits]; exact plain (commandOutput_writeBack ..)
  | num2hex8 => rw [num2hex8_commits]; exact plain (commandOutput_writeBack ..)
  | isHex => rw [isHex_commits]; exact plain (commandOutput_setRes ..)
  | hex2rgb => exact turnEnds_withBody hex2rgb_lengths fun _ => plain (commandOutput_setRgb ..)
  | hex2rgba => exact turnEnds_withBody hex2rgba_lengths fun _ => plain (commandOutput_setRgba ..)
  | rgb2hex =>
    change TurnEnds s _ _ (execRgb2hex s)
    unfold execRgb2hex
    exact turnEnds_withRgb fun _ _ _ => plain (commandOutput_writeBack ..)
  | rgba2hex =>
    change TurnEnds s _ _ (execRgba2hex s)
    unfold execRgba2hex
    exact turnEnds_withRgba fun _ _ _ _ => plain (commandOutput_writeBack ..)
  | hsv2rgb => rw [hsv2rgb_commits]; exact plain (commandOutput_setTriple ..)
  | rgb2hsv => exact turnEnds_withRgb fun _ _ _ => plain (commandOutput_setTriple ..)
  | palEven => exact turnEnds_withCount fun _ hmax => plain (commandOutput_commitPalette hmax _)
  | palGolden =>
    change TurnEnds s _ _ (execPalGolden s)
    unfold execPalGolden
    exact turnEnds_withCount fun _ hmax => turnEnds_withDraw fun _ => turnEnds_finish (commandOutput_commitPalette hmax _)
  | randRange =>
    change TurnEnds s _ _ (execRandRange s)
    unfold execRandRange
    exact turnEnds_check (by decide) (fun hp => (if_pos hp).trans (raise_eq _ (by decide) s)) (fun hp => if_neg hp)
      fun _ => turnEnds_withDraw fun _ => turnEnds_finish (commandOutput_setRes ..)
  | randRgb | randRgba => exact turnEnds_withDraw fun _ => turnEnds_finish (commandOutput_setRes ..)
  | randBrightRgb | randPastelRgb => exact turnEnds_randomRgb
  | randBrightRgba | randPastelRgba => exact turnEnds_randomRgba

end Sys2Proof.Machine
end

section
/-! PROOFS. What one step can do, said once: the event it takes, and what that event does to the block (60_exceptions.md
R291, R311). Every statement about all steps is a case analysis of `Effect`. -/

namespace Sys2Proof.Machine

/-- The offsets STATUS.BUSY guards: CMD, STRLEN, ARG and STRBUF (70_reset_and_hazards.md R331). -/
def BusyGuards (off : Offset) : Prop :=
  off.toNat = 0x010 ∨ off.toNat = 0x018 ∨ (0x020 ≤ off.toNat ∧ off.toNat < 0x030) ∨
    (0x040 ≤ off.toNat ∧ off.toNat < 0x050)

/-- What a legal write that is not ignored leaves, but for its answer, by its offset (10_state.md R33 to R40, R331). Of an
operand write it says which registers it may change, not what they then hold. -/
inductive Written (s : State) (v : Word) : Offset → State → Prop where
  | softReset (hv : v.getLsbD 1 = true) : Written s v 0x008 (resetRegisters s)
  | irqEnable (hv : v.getLsbD 1 = false) : Written s v 0x008 { s with irqEn := v.getLsbD 0 }
  | status : Written s v 0x00C (writeStatus v s)
  | overrun (off : Offset) (hoff : BusyGuards off) (hbusy : s.busy = true) : Written s v off { s with ovr := true }
  | accepted (hidle : s.engine = .idle) : Written s v 0x010 (acceptCommand v s)
  | operand (off : Offset) (hidle : s.engine = .idle) (args : Vector Word 4) (strlen : BitVec 8) (str : Vector Byte 16) :
    Written s v off { s with args := args, strlen := strlen, str := str }

/-- What one event does: the answer or the write of a bus access, the end of an engine's turn, the taking of a random word,
a level of the reset pin. -/
inductive Effect (s : State) : Input → State → Prop where
  | answered (a : BusAccess) (r : Option Response) (hr : s.rstN = false → r = none) :
    Effect s (.bus a) { s with resp := r }
  | wrote (off : Offset) (v : Word) (hrst : s.rstN = true) (u : State) (hu : Written s v off u) :
    Effect s (.bus (.write off 0b1111 v)) { u with resp := some ⟨.okay, none⟩ }
  | stayed : Effect s .engine s
  | waited (w : Word) (ops : Operands) (drawn : List Word) (i : Instr) (hengine : s.engine = .busy w ops drawn)
    (hrst : s.rstN = true) (hdecode : decode s.cfg w = .command i) (herror : commandError s.cfg i ops = .none)
    (hdrawn : drawn.length < i.draws) : Effect s .engine { s with rngReq := true }
  | failed (c : ErrCode) (hc : c ≠ .none) (hrst : s.rstN = true) (hbusy : s.busy = true) :
    Effect s .engine (failedWith c s)
  | committed (s' : State) (output : CommandOutput s s') (hrst : s.rstN = true) (hbusy : s.busy = true) :
    Effect s .engine (complete .none s')
  | tookWord (u w : Word) (ops : Operands) (drawn : List Word) (hengine : s.engine = .busy w ops drawn)
    (hreq : s.rngReq = true) (hrst : s.rstN = true) :
    Effect s (.rng u) { s with engine := .busy w ops (drawn ++ [u]), rngReq := false }
  | ignoredWord (u : Word) : Effect s (.rng u) s
  | released : Effect s (.rstN true) { s with rstN := true }
  | asserted : Effect s (.rstN false) { resetRegisters s with rstN := false, resp := none }

/-- The offset of a guarded register is guarded. -/
theorem busyGuards_offset {r : Reg} (h : r = .cmd ∨ r = .strlen ∨ (∃ i, r = .arg i) ∨ ∃ i, r = .strbuf i) :
    BusyGuards r.offset := by
  unfold BusyGuards
  rcases h with rfl | rfl | ⟨i, rfl⟩ | ⟨i, rfl⟩
  · exact .inl rfl
  · exact .inr (.inl rfl)
  · refine .inr (.inr (.inl ?_))
    simp only [Reg.offset, BitVec.toNat_ofNat]
    omega
  · refine .inr (.inr (.inr ?_))
    simp only [Reg.offset, BitVec.toNat_ofNat]
    omega

/-- A write of a register leaves the state alone, or does what `Written` lists for the register's offset. -/
theorem writeReg_written (s : State) (v : Word) (r : Reg) :
    writeReg s v r = s ∨ Written s v r.offset (writeReg s v r) := by
  rcases writeReg_cases s v r with h | ⟨rfl, h⟩ | ⟨rfl, h⟩ | ⟨hbusy, hr, h⟩ | ⟨hidle, rfl, h⟩ | ⟨hidle, a, l, t, h⟩
  · exact .inl h
  · rw [h, writeCtrl]
    split
    · exact .inr (.softReset ‹_›)
    · exact .inr (.irqEnable (Bool.not_eq_true _ ▸ ‹_›))
  · rw [h]; exact .inr .status
  · rw [h]; exact .inr (.overrun _ (busyGuards_offset hr) hbusy)
  · rw [h]; exact .inr (.accepted ((not_busy_iff s).mp hidle))
  · rw [h]; exact .inr (.operand _ ((not_busy_iff s).mp hidle) a l t)

theorem busAccess_unserviced {s : State} (h : s.rstN = false) (a : BusAccess) :
    busAccess a s = { s with resp := none } := by simp [busAccess, h]

theorem effect_busAccess (a : BusAccess) (s : State) : Effect s (.bus a) (busAccess a s) := by
  by_cases hrst : s.rstN = true
  · have released (r : Option Response) : s.rstN = false → r = none := fun h => absurd hrst (by simp [h])
    rcases busAccess_cases a s with ⟨r, h⟩ | ⟨off, v, r, rfl, -, hreg, h⟩
    · rw [h]; exact .answered a r (released r)
    · rw [h, ← offset_of_regAt hreg]
      rcases writeReg_written s v r with hsame | hwritten
      · rw [hsame]; exact .answered _ _ (released _)
      · exact .wrote _ v hrst _ hwritten
  · have hlow : s.rstN = false := by simpa using hrst
    rw [busAccess_unserviced hlow]
    exact .answered a none fun _ => rfl

theorem effect_engineTurn {s t : State} (h : engineTurn s = .next t) : Effect s .engine t := by
  unfold engineTurn at h
  split at h
  case isFalse => cases h; exact .stayed
  case isTrue hrst =>
    split at h
    case h_1 => cases h; exact .stayed
    case h_2 w ops drawn hengine =>
      have hbusy := busy_of_busy s w ops drawn hengine
      split at h
      case h_1 i hdecode =>
        have ends := exec_turnEnds i s
        rw [h, ops_of_busy hengine] at ends
        cases ends with
        | fails he => exact .failed _ he hrst hbusy
        | waits he hd => exact .waited w ops drawn i hengine hrst hdecode he (drawn_of_busy hengine ▸ hd)
        | commits _ _ s' output => exact .committed s' output hrst hbusy
      case h_2 =>
        rw [raise_eq _ (by decide)] at h
        cases h
        exact .failed _ (by decide) hrst hbusy

theorem effect_wordPresented (u : Word) (s : State) : Effect s (.rng u) (wordPresented u s) := by
  unfold wordPresented
  split
  · exact .ignoredWord u
  · split
    case isTrue w ops drawn hengine h =>
      obtain ⟨hreq, hrst⟩ := Bool.and_eq_true_iff.mp h
      exact .tookWord u w ops drawn hengine hreq hrst
    case isFalse => exact .ignoredWord u

theorem effect_resetPin (level : Bool) (s : State) : Effect s (.rstN level) (resetPin level s) := by
  cases level with
  | true => exact .released
  | false => exact .asserted

/-- Whatever an event leaves is one of the effects. -/
theorem effect_takeInput {e : Input} {s t : State} (h : takeInput e s = .next t) : Effect s e t := by
  cases e with
  | bus a => cases h; exact effect_busAccess a s
  | engine => exact effect_engineTurn h
  | rng u => cases h; exact effect_wordPresented u s
  | rstN level => cases h; exact effect_resetPin level s

/-- The event of a step and those it leaves: the oldest coming one, or the engine's turn when none is left. -/
def Takes (s : State) (e : Input) (rest : List Input) : Prop :=
  s.inputs = e :: rest ∨ s.inputs = [] ∧ e = .engine ∧ rest = []

/-- A step is the effect of one event on the state that no longer holds it. -/
theorem effect_step {s t : State} (h : step s = .next t) :
    ∃ e rest, Takes s e rest ∧ Effect { s with inputs := rest } e t := by
  rcases step_cases h with ⟨hnil, hturn⟩ | ⟨e, rest, hcons, htake⟩
  · have hsame : { s with inputs := [] } = s := by rw [← hnil]
    exact ⟨.engine, [], .inr ⟨hnil, rfl, rfl⟩, hsame.symm ▸ effect_engineTurn hturn⟩
  · exact ⟨e, rest, .inl hcons, effect_takeInput htake⟩

end Sys2Proof.Machine
end

section
/-! PROOFS. The invariant of the block: it holds in every state whose registers are at their reset values, and every effect
of an event keeps it (10_state.md R34, R36, R42, R46; 60_exceptions.md R290; 70_reset_and_hazards.md R320). -/

namespace Sys2Proof.Machine

section

variable {s : State}

/-! ### The parts of the invariant -/

theorem flagsOk_of_idle (hidle : s.engine = .idle) (herr : s.err = true ↔ s.errcode ≠ .none) : s.flagsOk :=
  ⟨fun hbusy => by simp [busy_of_idle s hidle] at hbusy, herr⟩

theorem engineOk_of_idle (hidle : s.engine = .idle) : s.engineOk = true ↔ s.rngReq = false := by
  simp [State.engineOk, hidle]

theorem engineOk_of_busy {w : Word} {ops : Operands} {drawn : List Word} (hengine : s.engine = .busy w ops drawn) :
    s.engineOk = true ↔ (w = s.cmd ∧ ops = s.live) ∧ drawsOk s.cfg w ops drawn s.rngReq = true := by
  simp only [State.engineOk, hengine, Bool.and_eq_true, decide_eq_true_iff]

theorem resetOk_of_released (hrst : s.rstN = true) : s.resetOk := fun hlow => by simp [hrst] at hlow

/-- Before the first draw any command word is in order. -/
theorem drawsOk_nil (b : Build) (w : Word) (o : Operands) : drawsOk b w o [] false = true := by
  unfold drawsOk
  split
  · rfl
  · split <;> simp

/-- A legal command that raises no error may draw and ask up to its number of draws. -/
theorem drawsOk_iff {b : Build} {w : Word} {o : Operands} {i : Instr} (hdecode : decode b w = .command i)
    (herror : commandError b i o = .none) (drawn : List Word) (req : Bool) :
    drawsOk b w o drawn req = true ↔ drawn.length + req.toNat ≤ i.draws := by
  simp [drawsOk, hdecode, herror]

/-- Taking the word that was asked for keeps the draws in order. -/
theorem drawsOk_take {b : Build} {w : Word} {o : Operands} {drawn : List Word}
    (h : drawsOk b w o drawn true = true) (u : Word) : drawsOk b w o (drawn ++ [u]) false = true := by
  unfold drawsOk at h
  split at h
  case h_1 => simp at h
  case h_2 i hdecode =>
    split at h
    case isTrue herror => exact (drawsOk_iff hdecode herror ..).mpr (by simpa using h)
    case isFalse => simp at h

/-- A committed palette has at most PAL_MAX entries, all below PAL_MAX. -/
theorem paletteOk_commitPalette {count : Nat} (hmax : count ≤ s.cfg.palMax) (colour : Nat → Nat) (h : s.paletteOk) :
    (s.commitPalette count colour).paletteOk := by
  obtain ⟨-, habsent⟩ := h
  refine ⟨?_, fun k hk => ?_⟩
  · rw [commitPalette_palcnt, BitVec.toNat_ofNat]
    exact (Nat.mod_le _ _).trans hmax
  · rw [commitPalette_get, if_neg (by rw [commitPalette_cfg] at hk; omega)]
    exact habsent k hk

theorem paletteOk_of_output {s' : State} (output : CommandOutput s s') (h : s.paletteOk) : s'.paletteOk := by
  obtain ⟨outside, ⟨hpal, hpalcnt⟩ | ⟨count, colour, hmax, rfl⟩⟩ := output
  · unfold State.paletteOk at h ⊢
    rwa [hpal, hpalcnt, outside.cfg]
  · exact paletteOk_commitPalette hmax colour h

/-- Registers at their reset values meet the invariant, as long as no answer stands while rst_n is low. -/
theorem inv_of_reset (hregs : resetRegisters s = s) (hresp : s.rstN = false → s.resp = none) : Inv s := by
  have hidle : s.engine = .idle := by rw [← hregs]; rfl
  have hcount : s.palcnt = 0 := by rw [← hregs]; rfl
  have hpal (k : Fin 64) : s.pal[k] = 0 := by rw [← hregs]; simp [State.reset]
  have hflags : s.err = true ↔ s.errcode ≠ .none := by rw [← hregs]; simp [State.reset]
  have hreq : s.rngReq = false := by rw [← hregs]; rfl
  exact ⟨flagsOk_of_idle hidle hflags, (engineOk_of_idle hidle).mpr hreq, ⟨by simp [hcount], fun k _ => hpal k⟩,
    fun hlow => ⟨hregs, hresp hlow⟩⟩

/-! ### Its preservation -/

/-- The coming events are no part of the invariant. -/
theorem inv_inputs (h : Inv s) (l : List Input) : Inv { s with inputs := l } := by
  obtain ⟨hflags, hengine, hpalette, hreset⟩ := h
  refine ⟨hflags, hengine, hpalette, fun hlow => ?_⟩
  obtain ⟨hregs, hresp⟩ := hreset hlow
  exact ⟨congrArg (fun u : State => { u with inputs := l }) hregs, hresp⟩

/-- The answer is part of the invariant only while rst_n is low. -/
theorem inv_resp (h : Inv s) {r : Option Response} (hr : s.rstN = false → r = none) : Inv { s with resp := r } := by
  obtain ⟨hflags, hengine, hpalette, hreset⟩ := h
  refine ⟨hflags, hengine, hpalette, fun hlow => ?_⟩
  obtain ⟨hregs, -⟩ := hreset hlow
  exact ⟨congrArg (fun u : State => { u with resp := r }) hregs, hr hlow⟩

theorem inv_written {v : Word} {off : Offset} {u : State} (h : Inv s) (hrst : s.rstN = true)
    (hu : Written s v off u) : Inv u := by
  obtain ⟨⟨hbusyFlags, herr⟩, hengine, hpalette, -⟩ := h
  cases hu with
  | softReset => exact inv_of_reset rfl fun hlow => by simp [hrst] at hlow
  | irqEnable => exact ⟨⟨hbusyFlags, herr⟩, hengine, hpalette, resetOk_of_released hrst⟩
  | status =>
    refine ⟨⟨fun hbusy => ?_, herr⟩, hengine, hpalette, resetOk_of_released hrst⟩
    obtain ⟨hdone, herr0, hcode⟩ := hbusyFlags hbusy
    exact ⟨by simp [hdone], herr0, hcode⟩
  | overrun => exact ⟨⟨hbusyFlags, herr⟩, hengine, hpalette, resetOk_of_released hrst⟩
  | accepted hidle =>
    have hreq : s.rngReq = false := (engineOk_of_idle hidle).mp hengine
    refine ⟨⟨fun _ => ⟨rfl, rfl, rfl⟩, by simp⟩, ?_, hpalette, resetOk_of_released hrst⟩
    rw [engineOk_of_busy rfl, acceptCommand_rngReq, hreq]
    exact ⟨⟨rfl, rfl⟩, drawsOk_nil ..⟩
  | operand _ hidle args strlen str =>
    have hreq : s.rngReq = false := (engineOk_of_idle hidle).mp hengine
    exact ⟨⟨hbusyFlags, herr⟩, (engineOk_of_idle (by exact hidle)).mpr hreq, hpalette, resetOk_of_released hrst⟩

theorem written_rstN {v : Word} {off : Offset} {u : State} (hu : Written s v off u) : u.rstN = s.rstN := by
  cases hu <;> rfl

/-- Every effect keeps the invariant: only a waiting command and a taken word move the draws, and only a commit moves the
palette. -/
theorem inv_effect {e : Input} {t : State} (h : Inv s) (he : Effect s e t) : Inv t := by
  cases he with
  | answered _ r hr => exact inv_resp h hr
  | wrote off v hrst u hu =>
    exact inv_resp (inv_written h hrst hu) fun hlow => by simp [written_rstN hu, hrst] at hlow
  | stayed => exact h
  | ignoredWord => exact h
  | waited w ops drawn i hengine hrst hdecode herror hdrawn =>
    obtain ⟨hflags, hdraws, hpalette, -⟩ := h
    obtain ⟨hlive, -⟩ := (engineOk_of_busy hengine).mp hdraws
    refine ⟨hflags, (engineOk_of_busy (by exact hengine)).mpr ⟨hlive, ?_⟩, hpalette, resetOk_of_released hrst⟩
    exact (drawsOk_iff hdecode herror ..).mpr hdrawn
  | failed c hc hrst =>
    obtain ⟨-, -, hpalette, -⟩ := h
    exact ⟨flagsOk_of_idle rfl (by simp [failedWith, hc]), rfl, hpalette, resetOk_of_released hrst⟩
  | committed s' output hrst =>
    obtain ⟨-, -, hpalette, -⟩ := h
    have hpalette' : s'.paletteOk := paletteOk_of_output output hpalette
    have hrst' : s'.rstN = true := output.outside.rstN.trans hrst
    exact ⟨flagsOk_of_idle rfl (by simp), rfl, hpalette', resetOk_of_released hrst'⟩
  | tookWord u w ops drawn hengine hreq hrst =>
    obtain ⟨⟨hbusyFlags, herr⟩, hdraws, hpalette, -⟩ := h
    obtain ⟨hlive, horder⟩ := (engineOk_of_busy hengine).mp hdraws
    rw [hreq] at horder
    refine ⟨⟨fun _ => hbusyFlags (busy_of_busy s w ops drawn hengine), herr⟩, ?_, hpalette, resetOk_of_released hrst⟩
    exact (engineOk_of_busy rfl).mpr ⟨hlive, drawsOk_take horder u⟩
  | released =>
    obtain ⟨hflags, hengine, hpalette, -⟩ := h
    exact ⟨hflags, hengine, hpalette, resetOk_of_released rfl⟩
  | asserted => exact inv_of_reset rfl fun _ => rfl

end

/-! ### The obligations -/

/-- Settles O9: the step is the effect of one event, and every effect keeps the invariant. -/
theorem everyStepKeepsTheInvariant : Obligations.EveryStepKeepsTheInvariant := by
  intro s t hinv hstep
  obtain ⟨e, rest, -, heffect⟩ := effect_step hstep
  exact inv_effect (inv_inputs hinv rest) heffect

/-- Settles O10: every register is at its reset value and rst_n is released. -/
theorem resetMeetsTheInvariant : Obligations.ResetMeetsTheInvariant :=
  inv_of_reset rfl fun _ => rfl

end Sys2Proof.Machine
end

section
/-! PROOFS. What a step can change of STATUS, of the results and of the operands, read off its effect (10_state.md R34, R38,
R39, R42; 70_reset_and_hazards.md R331, R332). -/

namespace Sys2Proof.Machine

open Sys2Proof.Claims

section

variable {s t : State} {e : Input} {rest : List Input}

/-! ### The event of a step -/

/-- Where the event is the engine's turn, the engine is next. -/
theorem takes_engine (h : Takes s .engine rest) : engineIsNext s := by
  rcases h with hcons | ⟨hnil, -, -⟩
  · exact .inr ⟨rest, hcons⟩
  · exact .inl hnil

/-- An event of the outside world is the oldest coming one. -/
theorem takes_event (h : Takes s e rest) (he : e ≠ .engine) : s.inputs = e :: rest := by
  rcases h with hcons | ⟨-, rfl, -⟩
  · exact hcons
  · exact absurd rfl he

theorem takes_reset (h : Takes s e rest) (hreset : resets e = true) : s.inputs = e :: rest :=
  takes_event h fun he => by rw [he] at hreset; cases hreset

/-- The engine has the turn and a command in flight ends. -/
def Completes (s : State) (e : Input) (t : State) : Prop := e = .engine ∧ s.busy = true ∧ t.busy = false

theorem completes_of_idle (hbusy : s.busy = true) (hidle : t.engine = .idle) : Completes s .engine t :=
  ⟨rfl, hbusy, busy_of_idle t hidle⟩

theorem engineIsNext_of_completes (htakes : Takes s e rest) (h : Completes { s with inputs := rest } e t) :
    s.busy = true ∧ t.busy = false ∧ engineIsNext s := by
  obtain ⟨rfl, hbusy, hidle⟩ := h
  exact ⟨hbusy, hidle, takes_engine htakes⟩

/-- Idle or busy, no event changes the build (10_state.md R32). -/
theorem effect_cfg (h : Effect s e t) : t.cfg = s.cfg := by
  cases h with
  | wrote off v hrst u hu => cases hu <;> rfl
  | committed s' output => exact output.outside.cfg
  | answered | stayed | waited | failed | tookWord | ignoredWord | released | asserted => rfl

/-! ### STATUS -/

theorem not_idle_of_busy (hidle : s.engine = .idle) (hbusy : s.busy = true) : False := by
  simp [busy_of_idle s hidle] at hbusy

/-- Only an accepted CMD write sets BUSY. -/
theorem effect_busy_rises (h : Effect s e t) (hidle : s.busy = false) (hbusy : t.busy = true) :
    ∃ v, e = .bus (.write 0x010 0b1111 v) ∧ s.rstN = true ∧ t.cmd = v ∧ t.engine = .busy v s.live [] := by
  have unchanged (ht : t.busy = s.busy) : False := by simp [ht, hidle] at hbusy
  cases h with
  | wrote off v hrst u hu =>
    cases hu with
    | accepted => exact ⟨v, rfl, hrst, rfl, rfl⟩
    | softReset => exact (not_idle_of_busy rfl hbusy).elim
    | irqEnable | status | overrun | operand => exact (unchanged rfl).elim
  | tookWord u w ops drawn hengine => simp [busy_of_busy s w ops drawn hengine] at hidle
  | failed | committed | asserted => exact (not_idle_of_busy rfl hbusy).elim
  | answered | stayed | waited | ignoredWord | released => exact (unchanged rfl).elim

/-- Where no command ends, DONE and ERR are at most cleared, and so is ERRCODE. -/
theorem effect_flags (h : Effect s e t) :
    Completes s e t ∨
      (t.done = true → s.done = true) ∧ (t.err = true → s.err = true) ∧ (t.errcode = .none ∨ t.errcode = s.errcode) := by
  cases h with
  | failed c hc hrst hbusy => exact .inl (completes_of_idle hbusy rfl)
  | committed s' output hrst hbusy => exact .inl (completes_of_idle hbusy rfl)
  | wrote off v hrst u hu =>
    right
    cases hu with
    | softReset | accepted => exact ⟨nofun, nofun, .inl rfl⟩
    | status => exact ⟨Bool.and_elim_left, id, .inr rfl⟩
    | irqEnable | overrun | operand => exact ⟨id, id, .inr rfl⟩
  | asserted => exact .inr ⟨nofun, nofun, .inl rfl⟩
  | answered | stayed | waited | tookWord | ignoredWord | released => exact .inr ⟨id, id, .inr rfl⟩

/-- Only a write that BUSY guards sets OVR. -/
theorem effect_ovr_rises (h : Effect s e t) (hclear : s.ovr = false) (hset : t.ovr = true) :
    s.busy = true ∧ t.busy = true ∧ ∃ off v, e = .bus (.write off 0b1111 v) ∧ BusyGuards off := by
  have unchanged (ht : t.ovr = s.ovr) : False := by simp [ht, hclear] at hset
  cases h with
  | wrote off v hrst u hu =>
    cases hu with
    | overrun _ hoff hbusy => exact ⟨hbusy, hbusy, off, v, rfl, hoff⟩
    | softReset => simp [State.reset] at hset
    | status => simp [hclear] at hset
    | irqEnable | accepted | operand => exact (unchanged rfl).elim
  | asserted => simp [State.reset] at hset
  | committed s' output => exact (unchanged output.outside.ovr).elim
  | answered | stayed | waited | failed | tookWord | ignoredWord | released => exact (unchanged rfl).elim

/-! ### Results -/

/-- RES, PAL and PALCNT stay but where a command succeeds or the registers are reset. -/
theorem effect_results (h : Effect s e t) :
    (t.res = s.res ∧ SamePalette s t) ∨ (Completes s e t ∧ t.done = true ∧ t.err = false) ∨ resets e = true := by
  cases h with
  | committed s' output hrst hbusy => exact .inr (.inl ⟨completes_of_idle hbusy rfl, rfl, rfl⟩)
  | wrote off v hrst u hu =>
    cases hu with
    | softReset hv => exact .inr (.inr (by simp [resets, softReset, hv]))
    | irqEnable | status | overrun | accepted | operand => exact .inl ⟨rfl, rfl, rfl⟩
  | asserted => exact .inr (.inr rfl)
  | answered | stayed | waited | failed | tookWord | ignoredWord | released => exact .inl ⟨rfl, rfl, rfl⟩

/-! ### Operands -/

/-- While a command is in flight the operands, CMD and the snapshot stay, but at its completion or a reset. -/
theorem effect_operands {w : Word} {ops : Operands} {drawn : List Word} (hengine : s.engine = .busy w ops drawn)
    (h : Effect s e t) :
    resets e = true ∨ t.args = s.args ∧ t.cmd = s.cmd ∧
      (t.engine = .idle ∨ SameText s t ∧ ∃ more, t.engine = .busy w ops (drawn ++ more)) := by
  have hbusy := busy_of_busy s w ops drawn hengine
  have kept : s.engine = .busy w ops (drawn ++ []) := by simpa using hengine
  cases h with
  | wrote off v hrst u hu =>
    cases hu with
    | softReset hv => exact .inl (by simp [resets, softReset, hv])
    | irqEnable | status | overrun => exact .inr ⟨rfl, rfl, .inr ⟨⟨rfl, rfl⟩, [], kept⟩⟩
    | accepted hidle | operand _ hidle => exact (not_idle_of_busy hidle hbusy).elim
  | tookWord u w' ops' drawn' hengine' =>
    obtain ⟨rfl, rfl, rfl⟩ := Engine.busy.inj (hengine.symm.trans hengine')
    exact .inr ⟨rfl, rfl, .inr ⟨⟨rfl, rfl⟩, [u], rfl⟩⟩
  | failed => exact .inr ⟨rfl, rfl, .inl rfl⟩
  | committed s' output => exact .inr ⟨output.outside.args, output.outside.cmd, .inl rfl⟩
  | asserted => exact .inl rfl
  | answered | stayed | waited | ignoredWord | released => exact .inr ⟨rfl, rfl, .inr ⟨⟨rfl, rfl⟩, [], kept⟩⟩

end

/-! ### The obligations -/

/-- Settles O53: BUSY and OVR by the write that sets them, DONE, ERR and ERRCODE by the completion. -/
theorem statusBitsAreSetOnlyAsStated : Obligations.StatusBitsAreSetOnlyAsStated := by
  intro s t hstep
  obtain ⟨e, rest, htakes, heffect⟩ := effect_step hstep
  have completed := engineIsNext_of_completes (t := t) htakes
  refine ⟨fun hidle hbusy => ?_, fun hclear hset => ?_, fun hclear hset => ?_, fun hcode hnew => ?_,
    fun hclear hset => ?_⟩
  · obtain ⟨v, rfl, hrst, hcmd, hengine⟩ := effect_busy_rises heffect hidle hbusy
    exact ⟨v, rest, takes_event htakes nofun, hrst, hcmd, hengine⟩
  · rcases effect_flags heffect with hends | ⟨hdone, -, -⟩
    · exact completed hends
    · cases hclear.symm.trans (hdone hset)
  · rcases effect_flags heffect with hends | ⟨-, herr, -⟩
    · exact completed hends
    · cases hclear.symm.trans (herr hset)
  · rcases effect_flags heffect with hends | ⟨-, -, hnone | hsame⟩
    · exact completed hends
    · exact absurd hnone hcode
    · exact absurd hsame hnew
  · obtain ⟨hbusy, hbusy', off, v, rfl, hoff⟩ := effect_ovr_rises heffect hclear hset
    exact ⟨hbusy, hbusy', off, v, rest, takes_event htakes nofun, hoff⟩

/-- Settles O55: of the effects only a commit and the two resets write RES, PAL or PALCNT. -/
theorem resultsChangeOnlyAtCompletionOrReset : Obligations.ResultsChangeOnlyAtCompletionOrReset := by
  intro s t hstep hchanged
  obtain ⟨e, rest, htakes, heffect⟩ := effect_step hstep
  rcases effect_results heffect with ⟨hres, hpal, hpalcnt⟩ | ⟨hends, hdone, herr⟩ | hreset
  · exact absurd ⟨hres, hpal, hpalcnt⟩ hchanged
  · obtain ⟨hbusy, hidle, hnext⟩ := engineIsNext_of_completes htakes hends
    exact .inl ⟨hbusy, hidle, hdone, herr, hnext⟩
  · exact .inr ⟨e, rest, takes_reset htakes hreset, hreset⟩

/-- Settles O56: while busy no effect but a reset writes CMD or an operand register. -/
theorem operandsHoldWhileBusy : Obligations.OperandsHoldWhileBusy := by
  intro s t w ops drawn hengine hstep
  obtain ⟨e, rest, htakes, heffect⟩ := effect_step hstep
  rcases effect_operands (by exact hengine) heffect with hreset | ⟨hargs, hcmd, hidle | ⟨⟨hstrlen, hstr⟩, hmore⟩⟩
  · exact .inl ⟨e, rest, takes_reset htakes hreset, hreset⟩
  · exact .inr ⟨hargs, hcmd, .inl hidle⟩
  · exact .inr ⟨hargs, hcmd, .inr ⟨⟨hstrlen, hstr⟩, hmore⟩⟩

end Sys2Proof.Machine
end

section
/-! PROOFS. The register window: what a read of each register answers and what a write of each leaves (10_state.md R31 to
R41, 20_memory.md R88, R89). -/

namespace Sys2Proof.Machine

/-! ### Words put together from fields -/

/-- Concatenation as a sum: the upper part shifted by the width of the lower. -/
theorem toNat_append_eq_add {n m : Nat} (x : BitVec n) (y : BitVec m) :
    (x ++ y).toNat = x.toNat * 2 ^ m + y.toNat := by
  rw [BitVec.toNat_append, ← Nat.shiftLeft_add_eq_or_of_lt y.isLt, Nat.shiftLeft_eq]

/-- A field with zeros above it is its number. -/
theorem zero_append_eq_ofNat {n m : Nat} (x : BitVec m) : (0 : BitVec n) ++ x = BitVec.ofNat (n + m) x.toNat := by
  have hlt : x.toNat < 2 ^ (n + m) := x.isLt.trans_le (Nat.pow_le_pow_right (by omega) (by omega))
  apply BitVec.eq_of_toNat_eq
  rw [toNat_append_eq_add, BitVec.toNat_ofNat, Nat.mod_eq_of_lt hlt]
  simp

theorem palMax_bounds (b : Build) : 1 ≤ b.palMax ∧ b.palMax ≤ 64 := by
  have := b.palMaxPred.isLt
  unfold Build.palMax
  omega

/-- CFG as a number (R32). -/
theorem cfgWord_toNat (b : Build) : (cfgWord b).toNat = b.palMax + 256 * b.randgen.toNat := by
  obtain ⟨-, hmax⟩ := palMax_bounds b
  simp only [cfgWord, toNat_append_eq_add, BitVec.toNat_ofBool, BitVec.ofNat_eq_ofNat, BitVec.toNat_ofNat]
  omega

/-- STATUS as a number, field by field (R34). -/
theorem statusWord_eq (s : State) :
    statusWord s = BitVec.ofNat 32 (s.busy.toNat + 2 * s.done.toNat + 4 * s.err.toNat + 8 * s.ovr.toNat
      + 16 * s.errcode.number.toNat) := by
  have hcode := s.errcode.number.isLt
  have hovr := s.ovr.toNat_lt
  have herr := s.err.toNat_lt
  have hdone := s.done.toNat_lt
  have hbusy := s.busy.toNat_lt
  apply BitVec.eq_of_toNat_eq
  simp only [statusWord, toNat_append_eq_add, BitVec.toNat_ofBool, BitVec.ofNat_eq_ofNat, BitVec.toNat_ofNat]
  omega

theorem ctrlWord_eq (irqEn : Bool) : (0 : BitVec 31) ++ BitVec.ofBool irqEn = if irqEn then 1 else 0 := by
  cases irqEn <;> rfl

/-- Byte lane j mod 4 of STRBUF(j div 4) is STR[j] (R40, R89). -/
theorem strWord_lane (str : Vector Byte 16) (i : Fin 4) (j : Fin 16) (h : j.val / 4 = i.val) :
    (strWord str i).extractLsb' (8 * (j.val % 4)) 8 = str[j] := by
  obtain ⟨k, hk, hj⟩ : ∃ k < 4, j.val = 4 * i.val + k := ⟨j.val % 4, Nat.mod_lt _ (by omega), by omega⟩
  rw [strWord, lane_of_append _ _ _ _ _ (Nat.mod_lt _ (by omega)), show j.val % 4 = k by omega]
  simp only [Fin.getElem_fin, hj]
  interval_cases k <;> rfl

/-! ### Reads and writes by register -/

/-- An offset given by its number. -/
theorem offset_eq {off : Offset} {n : Nat} (h : off.toNat = n) : off = BitVec.ofNat 9 n := by
  rw [← h, BitVec.ofNat_toNat, BitVec.setWidth_eq]

/-- The register is in the map of the build: every register but the palette entries from PAL_MAX on. -/
def Reg.InMap (b : Build) (r : Reg) : Prop := ∀ k, r = .pal k → k.val < b.palMax

/-- A read at a register's offset answers OKAY with the register. -/
theorem read_answers {s : State} {off : Offset} (hrst : s.rstN = true) (r : Reg) (hr : r.InMap s.cfg)
    (hoff : off = r.offset) : (busAccess (.read off 0b1111) s).resp = some ⟨.okay, some (readReg s r)⟩ := by
  rw [hoff, busAccess_read hrst (regAt_offset s.cfg r hr)]

/-- A write at a register's offset answers OKAY and has the register's write behaviour. -/
theorem write_answers {s : State} (hrst : s.rstN = true) (r : Reg) (hr : r.InMap s.cfg) (v : Word) :
    busAccess (.write r.offset 0b1111 v) s = { writeReg s v r with resp := some ⟨.okay, none⟩ } :=
  busAccess_write hrst (regAt_offset s.cfg r hr)

/-- Where the line's condition fails the lines below it decide. -/
theorem map_line_none {p : Prop} [Decidable p] {r : Reg} {below : Option Reg}
    (h : (if p then some r else below) = none) : ¬p ∧ below = none := by
  split at h
  · cases h
  · exact ⟨‹_›, h⟩

/-- Every aligned offset that is not reserved holds a register (R30). -/
theorem regAt_isSome {b : Build} {off : Offset} (haligned : off.toNat % 4 = 0) (hgap : off.toNat ≠ 0x01C)
    (hblank : ¬(0x050 ≤ off.toNat ∧ off.toNat ≤ 0x0FF)) (hpal : off.toNat < 0x100 + 4 * b.palMax) :
    ∃ r, regAt b off = some r := by
  apply Option.ne_none_iff_exists'.mp
  intro h
  unfold regAt at h
  dsimp only at h
  rw [if_neg (by simpa using haligned)] at h
  iterate 11 obtain ⟨_, h⟩ := map_line_none h
  omega

/-- At reset every register but ID and CFG reads 0 (R46). -/
theorem readReg_reset {r : Reg} (hid : r ≠ .id) (hcfg : r ≠ .cfg) : readReg State.reset r = 0 := by
  cases r with
  | id => exact absurd rfl hid
  | cfg => exact absurd rfl hcfg
  | ctrl | status | cmd | palcnt | strlen => rfl
  | arg i | res i => simp [readReg, State.reset]
  | strbuf i => simp [readReg, strWord, State.reset]
  | pal k => simp [readReg, State.reset]

/-! ### The obligations -/

/-- Settles O11: no effect touches the build, and CFG is its two fields. -/
theorem buildIsFixed : Obligations.BuildIsFixed := by
  refine ⟨fun s t hstep => ?_, fun s hrst => ?_⟩
  · obtain ⟨e, rest, -, heffect⟩ := effect_step hstep
    have hcfg := effect_cfg heffect
    exact hcfg
  · obtain ⟨hmin, hmax⟩ := palMax_bounds s.cfg
    exact ⟨hmin, hmax, cfgWord s.cfg, read_answers hrst .cfg nofun rfl, cfgWord_toNat s.cfg,
      fun x => write_answers hrst .cfg nofun x⟩

/-- An offset given by its number. -/
theorem offset_eq_ofNat {off : Offset} {n : Nat} (h : off.toNat = n) : off = BitVec.ofNat 9 n := by
  rw [← h, BitVec.ofNat_toNat, BitVec.setWidth_eq]

/-- Settles O47: register by register, the answer is `readReg`, whose word is put together from the fields. -/
theorem readsReturnTheRegisterMap : Obligations.ReadsReturnTheRegisterMap := by
  rintro s off hrst - answer rfl
  refine ⟨?_, ?_, ?_, ?_, ?_, ?_, fun i hoff => ?_, fun i hoff => ?_, fun i hoff => ?_, fun k hk hoff => ?_⟩
  · exact read_answers hrst .id nofun
  · intro hoff; rw [read_answers hrst .ctrl nofun hoff, readReg, ctrlWord_eq]
  · intro hoff; rw [read_answers hrst .status nofun hoff, readReg, statusWord_eq]
  · exact read_answers hrst .cmd nofun
  · intro hoff; rw [read_answers hrst .palcnt nofun hoff, readReg, zero_append_eq_ofNat]
  · intro hoff; rw [read_answers hrst .strlen nofun hoff, readReg, zero_append_eq_ofNat]
  · exact read_answers hrst (.arg i) nofun (offset_eq_ofNat hoff)
  · exact read_answers hrst (.res i) nofun (offset_eq_ofNat hoff)
  · exact ⟨_, read_answers hrst (.strbuf i) nofun (offset_eq_ofNat hoff), fun j hj => (strWord_lane s.str i j hj).symm⟩
  · have inMap : (Reg.pal k).InMap s.cfg := fun k' hk' => Reg.pal.inj hk' ▸ hk
    rw [read_answers hrst (.pal k) inMap (offset_eq_ofNat hoff), readReg, zero_append_eq_ofNat]

/-- Settles O48: while Idle the guard lets the write through. -/
theorem operandWritesStoreWhileIdle : Obligations.OperandWritesStoreWhileIdle := by
  intro s v hrst hidle
  refine ⟨fun i => ?_, ?_, fun i => ⟨setStrWord s.str i v, ?_, fun j => ⟨fun hj => ?_, fun hj => ?_⟩⟩⟩
  · exact (write_answers hrst (.arg i) nofun v).trans (by rw [writeReg, guardedWrite_idle hidle])
  · refine (write_answers hrst .strlen nofun v).trans ?_
    have hlow : v.extractLsb' 0 8 = BitVec.ofNat 8 (v.toNat % 256) := by
      apply BitVec.eq_of_toNat_eq
      simp [BitVec.extractLsb'_toNat]
    rw [writeReg, guardedWrite_idle hidle, hlow]
  · exact (write_answers hrst (.strbuf i) nofun v).trans (by rw [writeReg, guardedWrite_idle hidle])
  · rw [setStrWord_get, if_pos hj, BitVec.extractLsb'_toNat, Nat.shiftRight_eq_div_pow, pow_mul]
    norm_num
  · rw [setStrWord_get, if_neg hj]

/-- Settles O50: a CMD write is an acceptance while Idle and an overrun while busy, and a read returns CMD. -/
theorem cmdWriteIsAcceptedWhileIdle : Obligations.CmdWriteIsAcceptedWhileIdle := by
  refine ⟨rfl, fun s v hrst => ⟨fun hidle => ?_, fun hbusy => ?_, read_answers hrst .cmd nofun rfl⟩⟩
  · refine (write_answers hrst .cmd nofun v).trans ?_
    rw [writeReg, guardedWrite_idle hidle]
    rfl
  · refine (write_answers hrst .cmd nofun v).trans ?_
    rw [writeReg, guardedWrite_busy hbusy]

/-- Settles O52: W1C as `writeStatus` computes it is a choice between 0 and the bit. -/
theorem statusWriteClearsDoneAndOvr : Obligations.StatusWriteClearsDoneAndOvr := by
  intro s v hrst
  have clears (bit old : Bool) : (old && !bit) = if bit then false else old := by cases bit <;> simp
  refine (write_answers hrst .status nofun v).trans ?_
  rw [writeReg, writeStatus, clears, clears]

/-- Settles O58: every legal offset holds a register, and of the registers only ID and CFG read other than 0 at reset. -/
theorem resetReadsAreZero : Obligations.ResetReadsAreZero := by
  refine ⟨rfl, rfl, rfl, fun off haligned hgap hblank => ?_⟩
  by_cases hid : off = 0x000
  · rw [if_pos hid, read_answers rfl .id nofun hid]
    rfl
  by_cases hcfg : off = 0x004
  · rw [if_neg hid, if_pos hcfg, read_answers rfl .cfg nofun hcfg]
    rfl
  obtain ⟨r, hreg⟩ := regAt_isSome (b := State.reset.cfg) haligned hgap hblank off.isLt
  have hoff := offset_of_regAt hreg
  have hzero : readReg State.reset r = 0 :=
    readReg_reset (by rintro rfl; exact hid hoff.symm) (by rintro rfl; exact hcfg hoff.symm)
  rw [if_neg hid, if_neg hcfg, busAccess_read rfl hreg, hzero]

end Sys2Proof.Machine
end

section
/-! PROOFS. The engine's turn in a step: the command in flight runs (30_encoding.md R110, 60_exceptions.md R311), and a
placed word is the next to run (10_state.md R35; log 11). -/

namespace Sys2Proof.Machine

section

variable {s : State}

/-- With no event left the step is the engine's turn (log 3). -/
theorem step_of_no_input (h : s.inputs = []) : step s = engineTurn s := by simp [step, h]

theorem step_of_input {e : Input} {rest : List Input} (h : s.inputs = e :: rest) :
    step s = takeInput e { s with inputs := rest } := by simp [step, h]

/-- The engine runs the command in flight. -/
theorem engineTurn_command {w : Word} {ops : Operands} {drawn : List Word} {i : Instr}
    (hengine : s.engine = .busy w ops drawn) (hrst : s.rstN = true) (hdecode : decode s.cfg w = .command i) :
    engineTurn s = exec i s := by simp [engineTurn, hengine, hrst, hdecode]

end

/-- A word placed whole is launched as it is. -/
theorem withFetchWord_toNat (s : State) (w : Word) : s.withFetchWord 32 w.toNat = launch w s := by
  rw [State.withFetchWord, Nat.mod_eq_of_lt w.isLt, BitVec.ofNat_toNat, BitVec.setWidth_eq]

/-- The first step after a launch is the engine's turn in the state an accepted CMD write leaves, the coming events still
to come. -/
theorem step_launch (w : Word) (s : State) :
    step (launch w s) = engineTurn (acceptCommand w { s with engine := .idle, rngReq := false, rstN := true }) := by
  cases hinputs : s.inputs with
  | nil =>
    have hnil : (launch w s).inputs = [] := by simp [launch, hinputs]
    rw [step_of_no_input hnil]
    simp [launch, acceptCommand, flagsAtAcceptance, hinputs]
  | cons e rest =>
    have hcons : (launch w s).inputs = .engine :: e :: rest := by simp [launch, hinputs]
    rw [step_of_input hcons, takeInput]
    simp [launch, acceptCommand, flagsAtAcceptance, hinputs]

/-- Settles O6: the placed word is in flight with rst_n released, so the engine's turn runs its command. -/
theorem placedWordRunsNext : Obligations.PlacedWordRunsNext := by
  intro s w i hdecode
  rw [withFetchWord_toNat, step_launch]
  exact engineTurn_command rfl rfl hdecode

end Sys2Proof.Machine
end

section
/-! PROOFS. What a bus access leaves alone: a refused access, a write of a read-only register and a read (20_memory.md R81
to R84, R91). -/

namespace Sys2Proof.Machine

/-- An access that reaches no register is refused (R81, R82, R84). -/
theorem busAccess_refused {s : State} {a : BusAccess} (hrst : s.rstN = true) (h : a.target s.cfg = none) :
    busAccess a s = refuseAccess s a := by simp [busAccess, hrst, h]

/-- A read only leaves an answer, or none while rst_n is low (R91, 70_reset_and_hazards.md R320). -/
theorem busAccess_read_frame (s : State) (off : Offset) (be : BitVec 4) :
    ∃ r, busAccess (.read off be) s = { s with resp := r } := by
  rcases busAccess_cases (.read off be) s with hframe | ⟨_, _, _, hwrite, _⟩
  · exact hframe
  · cases hwrite

/-- Where the write behaviour of the register is to do nothing, the write only answers OKAY (R83). -/
theorem write_ignored {s : State} {off : Offset} {v : Word} (hrst : s.rstN = true) (r : Reg) (hr : r.InMap s.cfg)
    (hsame : writeReg s v r = s) (hoff : off = r.offset) :
    busAccess (.write off 0b1111 v) s = { s with resp := some ⟨.okay, none⟩ } := by
  rw [hoff, write_answers hrst r hr, hsame]

/-! ### The obligations -/

/-- Settles O45: a missing byte enable ends the search for a register, and otherwise none stands at the offset. -/
theorem illegalAccessesAnswerError : Obligations.IllegalAccessesAnswerError := by
  intro s off be v hrst hillegal
  have hread : BusAccess.target s.cfg (.read off be) = none := by
    rcases hillegal with hbe | hoff
    · exact if_neg hbe
    · rw [BusAccess.target, regAt_none hoff, ite_self]
  have hwrite : BusAccess.target s.cfg (.write off be v) = none := hread
  exact ⟨busAccess_refused hrst hread, busAccess_refused hrst hwrite⟩

/-- Settles O46: each of the offsets is that of a register whose write behaviour is to do nothing; RES and the palette take
their index from the offset. -/
theorem readOnlyWritesAreIgnored : Obligations.ReadOnlyWritesAreIgnored := by
  intro s off v hrst haligned hreadOnly
  rcases hreadOnly with hoff | hoff | hoff | ⟨hlow, hhigh⟩ | ⟨hlow, hhigh⟩
  · exact write_ignored hrst .id nofun rfl (offset_eq_ofNat hoff)
  · exact write_ignored hrst .cfg nofun rfl (offset_eq_ofNat hoff)
  · exact write_ignored hrst .palcnt nofun rfl (offset_eq_ofNat hoff)
  · obtain ⟨i, hi⟩ : ∃ i : Fin 4, off.toNat = 0x030 + 4 * i.val :=
      ⟨⟨(off.toNat - 0x030) / 4, by omega⟩, by dsimp only; omega⟩
    exact write_ignored hrst (.res i) nofun rfl (offset_eq_ofNat hi)
  · obtain ⟨-, hmax⟩ := palMax_bounds s.cfg
    obtain ⟨k, hk⟩ : ∃ k : Fin 64, off.toNat = 0x100 + 4 * k.val :=
      ⟨⟨(off.toNat - 0x100) / 4, by omega⟩, by dsimp only; omega⟩
    have inMap : (Reg.pal k).InMap s.cfg := fun k' hk' => by
      cases hk'
      omega
    exact write_ignored hrst (.pal k) inMap rfl (offset_eq_ofNat hk)

/-- Settles O44: the step is the read, and a read only leaves its answer. -/
theorem readsHaveNoSideEffect : Obligations.ReadsHaveNoSideEffect := by
  intro s off be rest hinputs
  obtain ⟨r, hread⟩ := busAccess_read_frame { s with inputs := rest } off be
  refine ⟨r, ?_⟩
  rw [step_of_input hinputs, takeInput, hread]

end Sys2Proof.Machine
end

section
/-! PROOFS. Decoding, said once for every word: nonzero reserved bits, an unassigned opcode, or the word of a command
(30_encoding.md R113, R117 to R119). -/

namespace Sys2Proof.Machine

open Sys2Proof.Claims

/-! ### The fields of a command word -/

/-- RSV is 0 exactly when the word is below 256 (R111). -/
theorem reservedBits_eq_zero_iff {w : Word} : w.extractLsb 31 8 = 0 ↔ w.toNat / 256 = 0 := by
  have hw := w.isLt
  rw [← BitVec.toNat_inj, BitVec.extractLsb_toNat, Nat.shiftRight_eq_div_pow]
  change _ = 0 ↔ _
  omega

/-- OPCODE is the low byte (R111). -/
theorem opcodeField_toNat (w : Word) : (w.extractLsb 7 0).toNat = w.toNat % 256 := by
  rw [BitVec.extractLsb_toNat, Nat.shiftRight_zero]

/-- The word of a command is its opcode as a number (R111, R112). -/
@[simp] theorem encode_toNat (i : Instr) : (encode i).toNat = i.opcode.toNat := by
  rw [encode, BitVec.toNat_append]
  simp

theorem eq_encode_iff {w : Word} {i : Instr} : w = encode i ↔ w.toNat = i.opcode.toNat := by
  rw [← BitVec.toNat_inj, encode_toNat]

theorem wordShape (i : Instr) : Laws.WordShape.Statement i := by
  cases i
  exacts [Laws.WordShape.packRgb, Laws.WordShape.packRgba, Laws.WordShape.unpackRgb, Laws.WordShape.unpackRgba,
    Laws.WordShape.hex2num, Laws.WordShape.hex2numFast, Laws.WordShape.num2hex6, Laws.WordShape.num2hex8,
    Laws.WordShape.isHex, Laws.WordShape.hex2rgb, Laws.WordShape.hex2rgba, Laws.WordShape.rgb2hex,
    Laws.WordShape.rgba2hex, Laws.WordShape.hsv2rgb, Laws.WordShape.rgb2hsv, Laws.WordShape.palEven,
    Laws.WordShape.palGolden, Laws.WordShape.randRange, Laws.WordShape.randRgb, Laws.WordShape.randRgba,
    Laws.WordShape.randBrightRgb, Laws.WordShape.randPastelRgb, Laws.WordShape.randBrightRgba,
    Laws.WordShape.randPastelRgba]

/-- A number the map reads as a command is that command's opcode: no two rows share a number (R113). -/
theorem opcode_of_commandOfOpcode {n : Nat} {i : Instr} (h : commandOfOpcode n = some i) : n = i.opcode.toNat := by
  unfold commandOfOpcode at h
  split at h <;> cases h <;> rfl

/-! ### Decoding by cases -/

theorem decode_reservedBits (b : Build) {w : Word} (h : w.toNat / 256 ≠ 0) :
    decode b w = .illegal .reservedBits := by
  rw [decode, if_pos (mt reservedBits_eq_zero_iff.mp h)]

theorem decode_unassigned (b : Build) {w : Word} (hrsv : w.toNat / 256 = 0) (h : commandOfOpcode w.toNat = none) :
    decode b w = .illegal .unassignedOpcode := by
  have hmod : w.toNat % 256 = w.toNat := by omega
  rw [decode, if_neg (not_not.mpr (reservedBits_eq_zero_iff.mpr hrsv)), opcodeField_toNat, hmod, h]

/-- The word of a command decodes to it in the builds that have it (R118); the others lack the random unit (R117). -/
theorem decode_encode (b : Build) (i : Instr) :
    decode b (encode i) = if i.wf b = true then .command i else .illegal .randomUnitAbsent := by
  obtain ⟨hrsv, hop, -⟩ := wordShape i
  rw [decode, if_neg (not_not.mpr hrsv), hop]
  dsimp only
  unfold Instr.wf
  cases i.ofRandomUnit <;> cases b.randgen <;> rfl

/-- Every word falls under exactly one of the three. -/
inductive WordKind (w : Word) : Prop where
  | reserved (h : w.toNat / 256 ≠ 0)
  | unassigned (hrsv : w.toNat / 256 = 0) (h : commandOfOpcode w.toNat = none)
  | command (i : Instr) (h : w = encode i)

theorem wordKind (w : Word) : WordKind w := by
  by_cases hrsv : w.toNat / 256 = 0
  · cases hop : commandOfOpcode w.toNat with
    | none => exact .unassigned hrsv hop
    | some i => exact .command i (eq_encode_iff.mpr (opcode_of_commandOfOpcode hop))
  · exact .reserved hrsv

/-! ### The opcode map -/

theorem mem_opcodeMap_iff {n : Nat} {i : Instr} : (n, i) ∈ opcodeMap ↔ n = i.opcode.toNat := by
  have rows : ∀ row ∈ opcodeMap, row.1 = row.2.opcode.toNat := by decide
  have listed : (i.opcode.toNat, i) ∈ opcodeMap := by cases i <;> decide
  exact ⟨rows (n, i), fun h => h ▸ listed⟩

theorem assigned_opcode (i : Instr) : assigned i.opcode.toNat := by cases i <;> decide

/-- The map reads a command from exactly the assigned numbers (R113). -/
theorem commandOfOpcode_eq_none_iff {n : Nat} : commandOfOpcode n = none ↔ ¬assigned n := by
  refine ⟨fun h hassigned => ?_, fun h => ?_⟩
  · have rows : ∀ m < 0x57, assigned m → commandOfOpcode m ≠ none := by decide
    exact rows n (by unfold assigned at hassigned; omega) hassigned h
  · cases hop : commandOfOpcode n with
    | none => rfl
    | some i =>
      exact absurd (opcode_of_commandOfOpcode hop ▸ assigned_opcode i) h

/-- The build has a command exactly when its opcode is below 0x50 or RANDGEN = 1 (R113). -/
theorem wf_iff {b : Build} {i : Instr} : i.wf b = true ↔ i.opcode.toNat < 0x50 ∨ b.randgen = true := by
  obtain ⟨-, -, hunit⟩ := wordShape i
  rw [encode_toNat] at hunit
  rw [Instr.wf, Bool.or_eq_true, Bool.not_eq_true', ← Bool.not_eq_true, hunit, not_le]

theorem not_wf_iff {b : Build} {i : Instr} : ¬i.wf b = true ↔ 0x50 ≤ i.opcode.toNat ∧ b.randgen = false := by
  rw [wf_iff, not_or, not_lt, Bool.not_eq_true]

/-- A command's word is illegal only for want of the random unit (R117). -/
theorem decode_encode_illegal_iff {b : Build} {i : Instr} {why : Illegal} :
    decode b (encode i) = .illegal why ↔
      why = .randomUnitAbsent ∧ 0x50 ≤ i.opcode.toNat ∧ b.randgen = false := by
  rw [decode_encode, ← not_wf_iff]
  split
  case isTrue hwf => simp [hwf]
  case isFalse hwf => simp [hwf, eq_comm]

/-! ### The obligations -/

/-- Settles O2: of the three kinds of word only a command's own word decodes to a command, and in its builds it does. -/
theorem decodeInvertsEncode : Obligations.DecodeInvertsEncode := by
  intro b w i
  refine ⟨fun hdecode => ?_, ?_⟩
  · cases wordKind w with
    | reserved h => cases (decode_reservedBits b h).symm.trans hdecode
    | unassigned hrsv h => cases (decode_unassigned b hrsv h).symm.trans hdecode
    | command j h =>
      subst h
      rw [decode_encode] at hdecode
      split at hdecode
      case isTrue hwf => cases hdecode; exact ⟨hwf, rfl⟩
      case isFalse => cases hdecode
  · rintro ⟨hwf, rfl⟩
    rw [decode_encode, if_pos hwf]

/-- Settles O1: a row of the map is a command beside the number of its word, and the words of the random rows are those from
0x50 on. -/
theorem commandWordsAreTheOpcodeMap : Obligations.CommandWordsAreTheOpcodeMap := by
  intro b w i
  rw [decodeInvertsEncode b w i, mem_opcodeMap_iff, eq_encode_iff, wf_iff, and_comm]
  exact and_congr_right fun h => by rw [h]

/-- Settles O3: each kind of word has its own answer, and the reason of a command's word is its build's RANDGEN. -/
theorem illegalWordsByReason : Obligations.IllegalWordsByReason := by
  intro b w
  cases wordKind w with
  | reserved h =>
    rw [decode_reservedBits b h]
    have hbig : ¬w.toNat ≤ 0x56 := by omega
    simp [h, hbig]
  | unassigned hrsv h =>
    have hrange := commandOfOpcode_eq_none_iff.mp h
    have houtside : ¬(0x50 ≤ w.toNat ∧ w.toNat ≤ 0x56) := fun hin => hrange (by unfold assigned; omega)
    rw [decode_unassigned b hrsv h]
    simp [hrsv, hrange, ← and_assoc, houtside]
  | command i h =>
    subst h
    have hassigned := assigned_opcode i
    have hrsv : i.opcode.toNat / 256 = 0 := Nat.div_eq_of_lt i.opcode.isLt
    have hlast : i.opcode.toNat ≤ 0x56 := by unfold assigned at hassigned; omega
    simp [decode_encode_illegal_iff, hassigned, hrsv, hlast]

/-- Settles O4: the five words are the commands' own, and the default build has every command. -/
theorem sampleWordsDecode : Obligations.SampleWordsDecode := by
  have own (i : Instr) : decode Build.standard (encode i) = .command i :=
    (decodeInvertsEncode Build.standard (encode i) i).mpr ⟨wf_iff.mpr (.inr rfl), rfl⟩
  exact ⟨own .packRgb, own .rgba2hex, own .rgb2hsv, own .palGolden, own .randPastelRgba⟩

end Sys2Proof.Machine
end

section
/-! PROOFS. The engine's turn on the word in flight, legal or illegal (30_encoding.md R110, 60_exceptions.md R282), and the
bus transactions of the host statements `cmd` and `wait` (30_encoding.md R121, R122). -/

namespace Sys2Proof.Machine

/-! ### The engine's turn -/

/-- When the engine is next, the step is its turn on the state without the event that gave it the turn (log 3). -/
theorem step_of_engineTurn {s : State} {f : State → Outcome}
    (hturn : ∀ l, engineTurn { s with inputs := l } = f { s with inputs := l }) :
    (s.inputs = [] → step s = f s) ∧
    (∀ rest, s.inputs = .engine :: rest → step s = f { s with inputs := rest }) := by
  refine ⟨fun hnil => ?_, fun rest hcons => ?_⟩
  · rw [step_of_no_input hnil]
    exact hturn s.inputs
  · rw [step_of_input hcons]
    exact hturn rest

/-- An illegal word in flight completes with ILLEGAL_COMMAND (R117, R282). -/
theorem engineTurn_illegal {s : State} {w : Word} {ops : Operands} {drawn : List Word} {why : Illegal}
    (hengine : s.engine = .busy w ops drawn) (hrst : s.rstN = true) (hdecode : decode s.cfg w = .illegal why) :
    engineTurn s = .next (failedWith .illegalCommand s) := by
  rw [← raise_eq _ (by decide)]
  simp [engineTurn, hengine, hrst, hdecode]

/-- Settles O5: whichever events are left, the engine runs the command of the word in flight. -/
theorem stepRunsTheCommandInFlight : Obligations.StepRunsTheCommandInFlight :=
  fun _ _ _ _ _ hengine hrst hdecode => step_of_engineTurn fun _ => engineTurn_command hengine hrst hdecode

/-- Settles O7: whichever events are left, the engine raises ILLEGAL_COMMAND, for any of the reasons. -/
theorem illegalCommandCompletesWithCodeOne : Obligations.IllegalCommandCompletesWithCodeOne :=
  fun _ _ _ _ _ hengine hrst hdecode =>
    step_of_engineTurn (f := fun u => .next (failedWith .illegalCommand u)) fun _ =>
      engineTurn_illegal hengine hrst hdecode

/-! ### The host's statements -/

/-- BUSY is bit 0 of STATUS (10_state.md R34). -/
theorem statusWord_bit_zero (s : State) : (statusWord s).getLsbD 0 = s.busy := by
  rw [statusWord, BitVec.getLsbD_append]
  simp

theorem hostTurn_cmd {d : Driver} {s : State} {i : Instr} (hrst : s.rstN = true) (hidle : s.engine = .idle)
    (hstmt : d.code[d.pc]? = some (.cmd i)) :
    hostTurn d s = ({ d with pc := d.pc + 1 }, { acceptCommand (encode i) s with resp := some ⟨.okay, none⟩ }) := by
  have hwrite := write_answers hrst .cmd nofun (encode i)
  rw [writeReg, guardedWrite_idle hidle] at hwrite
  rw [hostTurn_answered hstmt rfl (congrArg State.resp hwrite), hwrite]
  rfl

theorem hostTurn_wait {d : Driver} {s : State} (hrst : s.rstN = true) (hstmt : d.code[d.pc]? = some .wait) :
    hostTurn d s = ({ d with pc := if s.busy then d.pc else d.pc + 1, tmp := d.tmp.set 7 (statusWord s) },
      { s with resp := some ⟨.okay, some (statusWord s)⟩ }) := by
  have hread := busAccess_read hrst (regAt_offset s.cfg .status nofun)
  rw [hostTurn_answered hstmt rfl (congrArg State.resp hread), hread, ← statusWord_bit_zero]
  rfl

/-- Settles O60: `cmd` is an accepted write of the command's word, and the bit `wait` tests is BUSY. -/
theorem hostStatementsMakeTheirTransactions : Obligations.HostStatementsMakeTheirTransactions := by
  intro d s hrst
  refine ⟨fun i hstmt hidle => ?_, fun hstmt => ?_⟩
  · exact ⟨_, hostTurn_cmd hrst hidle hstmt, encode_toNat i, rfl⟩
  · exact ⟨statusWord s, hostTurn_wait hrst hstmt, statusWord_bit_zero s⟩

end Sys2Proof.Machine
end

section
/-! PROOFS. What a command commits, as a function of the operands it reads and the words it draws: which outputs it leaves
alone (30_encoding.md R115) and that nothing else decides them (30_encoding.md R114, 41_hex.md R161). -/

namespace Sys2Proof.Machine

open Sys2Proof.Claims

/-! ### Outputs -/

/-- What a command commits when it succeeds: values for some result registers, a text, or a palette (R115). -/
inductive Output where
  | results (writes : List (Fin 4 × Nat))
  | text (t : List Byte)
  | palette (count : Nat) (colour : Nat → Nat)

/-- The writes of result registers in their order. -/
def State.writeResults (s : State) (writes : List (Fin 4 × Nat)) : State :=
  writes.foldl (fun u w => u.setRes w.1 w.2) s

/-- The state with the outputs in place, STATUS not yet written. -/
def State.commit (s : State) : Output → State
  | .results writes => s.writeResults writes
  | .text t => s.writeBack t
  | .palette count colour => s.commitPalette count colour

/-- The result registers an output writes. -/
def Output.registers : Output → List (Fin 4)
  | .results writes => writes.map Prod.fst
  | .text _ => []
  | .palette _ _ => []

/-- The output is a text, into STRLEN and STR (41_hex.md R170). -/
def Output.isText : Output → Bool
  | .text _ => true
  | .results _ => false
  | .palette _ _ => false

/-- The output is a palette, into PAL and PALCNT (43_palette.md R230). -/
def Output.isPalette : Output → Bool
  | .palette _ _ => true
  | .results _ => false
  | .text _ => false

/-- Word k of the words drawn, for a command that has drawn more than k. -/
def wordDrawn (drawn : List Word) (k : Nat) : Word := drawn.getD k 0

/-- The channels of a packed RGB number, as `State.setRgb` writes them (40_packing.md R143). -/
def rgbWrites (n : Nat) : List (Fin 4 × Nat) := [(0, byteLane n 2), (1, byteLane n 1), (2, byteLane n 0)]

/-- The channels of a packed RGBA number, as `State.setRgba` writes them (40_packing.md R144). -/
def rgbaWrites (n : Nat) : List (Fin 4 × Nat) :=
  [(0, byteLane n 3), (1, byteLane n 2), (2, byteLane n 1), (3, byteLane n 0)]

/-- Three values, as `State.setTriple` writes them (42_hsv.md R203, R205). -/
def tripleWrites (t : Nat × Nat × Nat) : List (Fin 4 × Nat) := [(0, t.1), (1, t.2.1), (2, t.2.2)]

/-- Three drawn words mapped into lo..hi and packed, in the order they were drawn (44_random.md R254). -/
def drawnRgb (drawn : List Word) (lo hi : Nat) : Nat :=
  packRgbNumber (inRange (wordDrawn drawn 0) lo hi) (inRange (wordDrawn drawn 1) lo hi) (inRange (wordDrawn drawn 2) lo hi)

/-- Four drawn words mapped into lo..hi and packed, in the order they were drawn (44_random.md R256). -/
def drawnRgba (drawn : List Word) (lo hi : Nat) : Nat :=
  packRgbaNumber (inRange (wordDrawn drawn 0) lo hi) (inRange (wordDrawn drawn 1) lo hi)
    (inRange (wordDrawn drawn 2) lo hi) (inRange (wordDrawn drawn 3) lo hi)

/-- The outputs of a command that raises no error and has its words: a function of its operands and draws alone. -/
def outputs (o : Operands) (drawn : List Word) : Instr → Output
  | .packRgb => .results [(0, packRgbNumber o.args[0].toNat o.args[1].toNat o.args[2].toNat)]
  | .packRgba => .results [(0, packRgbaNumber o.args[0].toNat o.args[1].toNat o.args[2].toNat o.args[3].toNat)]
  | .unpackRgb => .results (rgbWrites o.args[0].toNat)
  | .unpackRgba => .results (rgbaWrites o.args[0].toNat)
  | .hex2num => .results [(0, foldSafe (stringBody o.text) % 2 ^ 32), (1, foldSafe (stringBody o.text) / 2 ^ 32)]
  | .hex2numFast => .results [(0, (foldFast (stringBody o.text)).toNat)]
  | .num2hex6 => .text (hexText 6 o.args[0].toNat)
  | .num2hex8 => .text (hexText 8 o.args[0].toNat)
  | .isHex => .results [(0, (isHexString o).toNat)]
  | .hex2rgb => .results (rgbWrites (foldFast (stringBody o.text)).toNat)
  | .hex2rgba => .results (rgbaWrites (foldSafe (stringBody o.text)))
  | .rgb2hex => .text (hexText 6 (packRgbNumber o.args[0].toNat o.args[1].toNat o.args[2].toNat))
  | .rgba2hex =>
    .text (hexText 8 (packRgbaNumber o.args[0].toNat o.args[1].toNat o.args[2].toNat o.args[3].toNat))
  | .hsv2rgb =>
    .results (tripleWrites (hsvCore (o.args[0].toInt % 360).toNat 1 (clamp o.args[1].toInt 0 100).toNat
      (clamp o.args[2].toInt 0 100).toNat))
  | .rgb2hsv => .results (tripleWrites (rgbCore o.args[0].toNat o.args[1].toNat o.args[2].toNat))
  | .palEven => .palette o.args[0].toInt.toNat (evenColour o.args[0].toInt.toNat)
  | .palGolden => .palette o.args[0].toInt.toNat (goldenColour (wordDrawn drawn 0))
  | .randRange => .results [(0, inRange (wordDrawn drawn 0) o.args[0].toNat o.args[1].toNat)]
  | .randRgb => .results [(0, inRange (wordDrawn drawn 0) 0 0xFFFFFF)]
  | .randRgba => .results [(0, inRange (wordDrawn drawn 0) 0 0xFFFFFFFF)]
  | .randBrightRgb => .results [(0, drawnRgb drawn 128 255)]
  | .randPastelRgb => .results [(0, drawnRgb drawn 180 230)]
  | .randBrightRgba => .results [(0, drawnRgba drawn 128 255)]
  | .randPastelRgba => .results [(0, drawnRgba drawn 180 230)]

/-! ### Its tie to the model -/

theorem not_of_no_error {p : Prop} [Decidable p] {c : ErrCode} (hc : c ≠ .none)
    (h : (if p then c else .none) = .none) : ¬p := by
  intro hp
  rw [if_pos hp] at h
  exact hc h

/-- A command whose operands call for no error and whose words are there commits its outputs and completes (R330). -/
theorem exec_commits {i : Instr} {s : State} (herror : commandError s.cfg i s.ops = .none)
    (hdrawn : i.draws ≤ s.drawn.length) : exec i s = finish (s.commit (outputs s.ops s.drawn i)) := by
  cases i with
  | packRgb => exact packRgb_commits (not_of_no_error (by decide) herror)
  | packRgba => exact packRgba_commits (not_of_no_error (by decide) herror)
  | unpackRgb => exact unpackRgb_commits
  | unpackRgba => exact unpackRgba_commits
  | hex2num => exact hex2num_commits (not_of_no_error (by decide) herror)
  | hex2numFast => exact hex2numFast_commits (not_of_no_error (by decide) herror)
  | num2hex6 => exact num2hex6_commits
  | num2hex8 => exact num2hex8_commits
  | isHex => exact isHex_commits
  | hex2rgb => exact hex2rgb_commits (not_of_no_error (by decide) herror)
  | hex2rgba => exact hex2rgba_commits (not_of_no_error (by decide) herror)
  | rgb2hex => exact rgb2hex_commits (not_of_no_error (by decide) herror)
  | rgba2hex => exact rgba2hex_commits (not_of_no_error (by decide) herror)
  | hsv2rgb => exact hsv2rgb_commits
  | rgb2hsv => exact rgb2hsv_commits (not_of_no_error (by decide) herror)
  | palEven => exact palEven_commits (not_of_no_error (by decide) herror)
  | palGolden =>
    obtain ⟨u, l, hl⟩ := one_le_length hdrawn
    rw [palGolden_commits (not_of_no_error (by decide) herror) hl, hl]; rfl
  | randRange =>
    obtain ⟨u, l, hl⟩ := one_le_length hdrawn
    rw [randRange_commits (not_of_no_error (by decide) herror) hl, hl]; rfl
  | randRgb => obtain ⟨u, l, hl⟩ := one_le_length hdrawn; rw [randRgb_commits hl, hl]; rfl
  | randRgba => obtain ⟨u, l, hl⟩ := one_le_length hdrawn; rw [randRgba_commits hl, hl]; rfl
  | randBrightRgb =>
    obtain ⟨ur, ug, ub, l, hl⟩ := three_le_length hdrawn
    rw [randBrightRgb_commits hl, hl]; rfl
  | randPastelRgb =>
    obtain ⟨ur, ug, ub, l, hl⟩ := three_le_length hdrawn
    rw [randPastelRgb_commits hl, hl]; rfl
  | randBrightRgba =>
    obtain ⟨ur, ug, ub, ua, l, hl⟩ := four_le_length hdrawn
    rw [randBrightRgba_commits hl, hl]; rfl
  | randPastelRgba =>
    obtain ⟨ur, ug, ub, ua, l, hl⟩ := four_le_length hdrawn
    rw [randPastelRgba_commits hl, hl]; rfl

/-- The outputs are those R115 lists for the command. -/
theorem outputs_registers (o : Operands) (drawn : List Word) (i : Instr) :
    (outputs o drawn i).registers = resultRegisters i := by cases i <;> rfl

theorem outputs_isText (o : Operands) (drawn : List Word) (i : Instr) :
    (outputs o drawn i).isText = writesText i := by cases i <;> rfl

theorem outputs_isPalette (o : Operands) (drawn : List Word) (i : Instr) :
    (outputs o drawn i).isPalette = writesPalette i := by cases i <;> rfl

/-! ### What a commit leaves alone -/

/-- Writes of result registers change nothing else. -/
theorem writeResults_frame (s : State) (writes : List (Fin 4 × Nat)) :
    s.writeResults writes = { s with res := (s.writeResults writes).res } := by
  induction writes generalizing s with
  | nil => rfl
  | cons w rest ih => exact ih (s.setRes w.1 w.2)

theorem writeResults_get_of_notMem {s : State} {writes : List (Fin 4 × Nat)} {k : Fin 4}
    (hk : k ∉ writes.map Prod.fst) : (s.writeResults writes).res[k] = s.res[k] := by
  induction writes generalizing s with
  | nil => rfl
  | cons w rest ih =>
    obtain ⟨hne, hrest⟩ := not_or.mp (mt List.mem_cons.mpr hk)
    exact (ih hrest).trans ((setRes_get ..).trans (if_neg (Ne.symm hne)))

theorem commit_get_of_notMem {s : State} {out : Output} {k : Fin 4} (hk : k ∉ out.registers) :
    (s.commit out).res[k] = s.res[k] := by
  cases out with
  | results writes => exact writeResults_get_of_notMem hk
  | text t => rfl
  | palette count colour => rfl

theorem sameText_commit {s : State} {out : Output} (h : out.isText = false) : SameText s (s.commit out) := by
  cases out with
  | results writes => rw [State.commit, writeResults_frame]; exact ⟨rfl, rfl⟩
  | text t => cases h
  | palette count colour => exact ⟨rfl, rfl⟩

theorem samePalette_commit {s : State} {out : Output} (h : out.isPalette = false) : SamePalette s (s.commit out) := by
  cases out with
  | results writes => rw [State.commit, writeResults_frame]; exact ⟨rfl, rfl⟩
  | text t => exact ⟨rfl, rfl⟩
  | palette count colour => cases h

/-! ### What a commit writes -/

/-- A result register that is written holds the same value whatever the state before. -/
theorem writeResults_get_of_mem {s s' : State} {writes : List (Fin 4 × Nat)} {k : Fin 4}
    (hk : k ∈ writes.map Prod.fst) : (s.writeResults writes).res[k] = (s'.writeResults writes).res[k] := by
  induction writes generalizing s s' with
  | nil => cases hk
  | cons w rest ih =>
    by_cases hrest : k ∈ rest.map Prod.fst
    · exact ih hrest
    · have hkw : w.1 = k := by simpa [hrest, eq_comm] using hk
      have value (u : State) : (u.writeResults (w :: rest)).res[k] = BitVec.ofNat 32 w.2 :=
        (writeResults_get_of_notMem hrest).trans ((setRes_get ..).trans (if_pos hkw))
      rw [value, value]

theorem commit_get_of_mem {s s' : State} {out : Output} {k : Fin 4} (hk : k ∈ out.registers) :
    (s.commit out).res[k] = (s'.commit out).res[k] := by
  cases out with
  | results writes => exact writeResults_get_of_mem hk
  | text t => cases hk
  | palette count colour => cases hk

theorem commit_text {s s' : State} {out : Output} (h : out.isText = true) :
    (s.commit out).strlen = (s'.commit out).strlen ∧ (s.commit out).str = (s'.commit out).str := by
  cases out with
  | text t => exact ⟨rfl, rfl⟩
  | results writes => cases h
  | palette count colour => cases h

theorem commit_palette {s s' : State} {out : Output} (h : out.isPalette = true) :
    (s.commit out).palcnt = (s'.commit out).palcnt ∧
      ∀ k : Fin 64, k.val < (s.commit out).palcnt.toNat → (s.commit out).pal[k] = (s'.commit out).pal[k] := by
  cases out with
  | palette count colour =>
    refine ⟨rfl, fun k hk => ?_⟩
    have hcount : k.val < count := hk.trans_le ((BitVec.toNat_ofNat ..).trans_le (Nat.mod_le ..))
    rw [State.commit, State.commit, commitPalette_get, commitPalette_get, if_pos hcount, if_pos hcount]
  | results writes => cases h
  | text t => cases h

/-! ### What the outputs and the error depend on -/

/-- Strings of one length that agree below it are the same text (R161). -/
theorem text_congr {o o' : Operands} (hlen : o.strlen = o'.strlen)
    (hstr : ∀ j : Fin 16, j.val < o.strlen.toNat → o.str[j] = o'.str[j]) : o.text = o'.text := by
  unfold Operands.text
  rw [← hlen]
  apply List.ext_getElem
  · simp
  · intro j hj _
    simp only [List.length_take, Vector.length_toList] at hj
    have hjstr := hstr ⟨j, by omega⟩ (by dsimp only; omega)
    simpa using hjstr

theorem channelTooBig_congr {o o' : Operands} {n : Nat} (h : ∀ k : Fin 4, k.val < n → o.args[k] = o'.args[k]) :
    o.channelTooBig n ↔ o'.channelTooBig n :=
  exists_congr fun k => and_congr_right fun hk => by rw [h k hk]

theorem malformed_congr {o o' : Operands} {lengths : List Nat} (hlen : o.strlen = o'.strlen) (htext : o.text = o'.text) :
    o.malformed lengths ↔ o'.malformed lengths := by
  unfold Operands.malformed
  rw [hlen, htext]

theorem isHexString_congr {o o' : Operands} (hlen : o.strlen = o'.strlen) (htext : o.text = o'.text) :
    isHexString o = isHexString o' := by
  unfold isHexString
  rw [hlen, htext]

section

variable {i : Instr} {o o' : Operands}

theorem sameInputs_arg (h : sameInputs i o o') (k : Fin 4) (hk : k ∈ argumentsRead i) : o.args[k] = o'.args[k] :=
  h.1 k hk

theorem sameInputs_text (h : sameInputs i o o') (hi : readsText i = true) :
    o.strlen = o'.strlen ∧ o.text = o'.text := by
  obtain ⟨-, htext⟩ := h
  obtain ⟨hlen, hstr⟩ := htext hi
  exact ⟨hlen, text_congr hlen hstr⟩

/-- The error a command raises depends on its listed inputs and the build. -/
theorem commandError_congr (b : Build) (h : sameInputs i o o') : commandError b i o = commandError b i o' := by
  have arg := sameInputs_arg h
  have text := sameInputs_text h
  cases i with
  | packRgb | rgb2hex | rgb2hsv | packRgba | rgba2hex =>
    exact if_congr (channelTooBig_congr fun k hk => arg k (by revert k; decide)) rfl rfl
  | hex2num | hex2numFast | hex2rgb | hex2rgba =>
    obtain ⟨hlen, htext⟩ := text rfl
    exact if_congr (malformed_congr hlen htext) rfl rfl
  | palEven | palGolden =>
    have h0 : o.args[0] = o'.args[0] := arg 0 (by decide)
    simp only [commandError, Operands.badCount, h0]
  | randRange =>
    have h0 : o.args[0] = o'.args[0] := arg 0 (by decide)
    have h1 : o.args[1] = o'.args[1] := arg 1 (by decide)
    simp only [commandError, h0, h1]
  | unpackRgb | unpackRgba | num2hex6 | num2hex8 | isHex | hsv2rgb => rfl
  | randRgb | randRgba | randBrightRgb | randPastelRgb | randBrightRgba | randPastelRgba => rfl

/-- The outputs of a command depend on its listed inputs and its draws. -/
theorem outputs_congr (drawn : List Word) (h : sameInputs i o o') : outputs o drawn i = outputs o' drawn i := by
  have h0 : 0 ∈ argumentsRead i → o.args[0] = o'.args[0] := sameInputs_arg h 0
  have h1 : 1 ∈ argumentsRead i → o.args[1] = o'.args[1] := sameInputs_arg h 1
  have h2 : 2 ∈ argumentsRead i → o.args[2] = o'.args[2] := sameInputs_arg h 2
  have h3 : 3 ∈ argumentsRead i → o.args[3] = o'.args[3] := sameInputs_arg h 3
  have text := sameInputs_text h
  cases i with
  | packRgb | rgb2hex | hsv2rgb | rgb2hsv =>
    simp only [outputs, h0 (by decide), h1 (by decide), h2 (by decide)]
  | packRgba | rgba2hex => simp only [outputs, h0 (by decide), h1 (by decide), h2 (by decide), h3 (by decide)]
  | unpackRgb | unpackRgba | num2hex6 | num2hex8 | palEven | palGolden => simp only [outputs, h0 (by decide)]
  | randRange => simp only [outputs, h0 (by decide), h1 (by decide)]
  | hex2num | hex2numFast | hex2rgb | hex2rgba =>
    obtain ⟨-, htext⟩ := text rfl
    simp only [outputs, htext]
  | isHex =>
    obtain ⟨hlen, htext⟩ := text rfl
    simp only [outputs, isHexString_congr hlen htext]
  | randRgb | randRgba | randBrightRgb | randPastelRgb | randBrightRgba | randPastelRgba => rfl

end

/-! ### The obligations -/

/-- Settles O15: an error and a wait write no output, and a commit writes those the command names. -/
theorem outputsNotNamedAreUnchanged : Obligations.OutputsNotNamedAreUnchanged := by
  intro i s t hexec
  have ends := exec_turnEnds i s
  rw [hexec] at ends
  cases ends with
  | fails => exact ⟨fun _ _ => rfl, fun _ => ⟨rfl, rfl⟩, fun _ => ⟨rfl, rfl⟩⟩
  | waits => exact ⟨fun _ _ => rfl, fun _ => ⟨rfl, rfl⟩, fun _ => ⟨rfl, rfl⟩⟩
  | commits herror hdrawn s' =>
    rw [exec_commits herror hdrawn, finish_eq] at hexec
    rw [← Host.Outcome.next.inj hexec, ← outputs_registers s.ops s.drawn, ← outputs_isText s.ops s.drawn,
      ← outputs_isPalette s.ops s.drawn]
    refine ⟨fun k hk => commit_get_of_notMem hk, fun h => ?_, fun h => ?_⟩
    · obtain ⟨hstrlen, hstr⟩ := sameText_commit (s := s) h
      exact ⟨hstrlen, hstr⟩
    · obtain ⟨hpal, hpalcnt⟩ := samePalette_commit (s := s) h
      exact ⟨hpal, hpalcnt⟩

/-- Settles O16: both states raise no error and commit the same outputs, so what they write agrees. -/
theorem commandsReadOnlyTheirInputs : Obligations.CommandsReadOnlyTheirInputs := by
  intro i s s' t t' hcfg hsame hwords hdrawn herror hexec hexec'
  have herror' : commandError s'.cfg i s'.ops = .none := by rw [← hcfg, ← commandError_congr s.cfg hsame, herror]
  have hout : outputs s'.ops s'.drawn i = outputs s.ops s.drawn i := by rw [← hwords, outputs_congr s.drawn hsame]
  rw [exec_commits herror hdrawn, finish_eq] at hexec
  rw [exec_commits herror' (hwords ▸ hdrawn), finish_eq, hout] at hexec'
  rw [← Host.Outcome.next.inj hexec, ← Host.Outcome.next.inj hexec', ← outputs_registers s.ops s.drawn,
    ← outputs_isText s.ops s.drawn, ← outputs_isPalette s.ops s.drawn]
  exact ⟨herror', fun k hk => commit_get_of_mem hk, commit_text, commit_palette⟩

end Sys2Proof.Machine
end

section
/-! PROOFS. What every command does by the error its operands call for: it raises that error, or it succeeds and leaves alone
what it does not name (60_exceptions.md R280, 30_encoding.md R115); and when a channel is out of range (40_packing.md R140). -/

namespace Sys2Proof.Machine

open Sys2Proof.Claims

/-- A command whose operands call for an error raises it, whatever it draws (60_exceptions.md R280, R290). -/
theorem exec_raises {i : Instr} {s : State} {c : ErrCode} (herror : commandError s.cfg i s.ops = c) (hc : c ≠ .none) :
    exec i s = .next (failedWith c s) := by
  have ends := exec_turnEnds i s
  rw [herror] at ends
  generalize exec i s = o at ends ⊢
  cases ends with
  | fails => rfl
  | waits he => exact absurd he hc
  | commits he => exact absurd he hc

/-- A turn that leaves ERR clear was that of operands which call for no error. -/
theorem noError_of_exec {i : Instr} {s t : State} (hexec : exec i s = .next t) (herr : t.err = false) :
    commandError s.cfg i s.ops = .none := by
  by_contra hc
  rw [exec_raises rfl hc] at hexec
  cases hexec
  cases herr

/-- A command whose operands call for no error and whose words are there succeeds and leaves alone what it does not name
(30_encoding.md R115, 70_reset_and_hazards.md R330). -/
theorem exec_succeeds {i : Instr} {s : State} (herror : commandError s.cfg i s.ops = .none)
    (hdrawn : i.draws ≤ s.drawn.length) :
    ∃ t, exec i s = .next t ∧ Succeeded s t ∧ (∀ k : Fin 4, k ∉ resultRegisters i → t.res[k] = s.res[k]) ∧
      (writesText i = false → SameText s t) ∧ (writesPalette i = false → SamePalette s t) := by
  have ends := exec_turnEnds i s
  generalize hexec : exec i s = o at ends
  cases ends with
  | fails he => exact absurd herror he
  | waits _ hd => exact absurd hdrawn (not_le.mpr hd)
  | commits _ _ s' output =>
    obtain ⟨hres, htext, hpalette⟩ := outputsNotNamedAreUnchanged i s _ hexec
    exact ⟨_, rfl, succeeded_complete output.outside, hres,
      fun h => have ⟨hstrlen, hstr⟩ := htext h; ⟨hstrlen, hstr⟩,
      fun h => have ⟨hpal, hpalcnt⟩ := hpalette h; ⟨hpal, hpalcnt⟩⟩

theorem channelTooBig_three_iff {o : Operands} :
    o.channelTooBig 3 ↔ 255 < o.args[0].toNat ∨ 255 < o.args[1].toNat ∨ 255 < o.args[2].toNat := by
  simp [Operands.channelTooBig, Fin.exists_fin_succ]

theorem channelTooBig_four_iff {o : Operands} : o.channelTooBig 4 ↔ ∃ k : Fin 4, 255 < o.args[k].toNat :=
  exists_congr fun k => and_iff_right k.isLt

theorem not_channelTooBig_four_of_forall {o : Operands} (h : ∀ k : Fin 4, o.args[k].toNat ≤ 255) :
    ¬o.channelTooBig 4 := channelTooBig_four_iff.not.mpr (not_exists.mpr fun k => not_lt.mpr (h k))

end Sys2Proof.Machine
end

section
/-! PROOFS. Packing and unpacking: what the four commands leave, and that they undo each other (40_packing.md R141 to
R146). -/

namespace Sys2Proof.Machine

open Sys2Proof.Claims

/-! ### Lanes and masks -/

/-- A lane of a word is its shift, masked to eight bits. -/
theorem shift_mask_toNat (w : Word) (i : Nat) : ((w >>> (8 * i)) &&& 0xFF).toNat = byteLane w.toNat i := by
  have hbase : 2 ^ (8 * i) = 256 ^ i := pow_mul 2 8 i
  rw [BitVec.toNat_and, BitVec.toNat_ushiftRight, Nat.shiftRight_eq_div_pow, hbase]
  exact Nat.and_two_pow_sub_one_eq_mod _ 8

/-- A word whose value is a lane is that shift and mask (R143). -/
theorem eq_shift_mask {x w : Word} {i : Nat} (h : x.toNat = byteLane w.toNat i) : x = (w >>> (8 * i)) &&& 0xFF :=
  BitVec.eq_of_toNat_eq (h.trans (shift_mask_toNat w i).symm)

/-- The same with the mask before the shift, as the source writes it for four channels (R144). -/
theorem eq_mask_shift {x w mask : Word} {i : Nat} (hmask : mask >>> (8 * i) = 0xFF) (h : x.toNat = byteLane w.toNat i) :
    x = (w &&& mask) >>> (8 * i) := by
  rw [BitVec.ushiftRight_and_distrib, hmask]
  exact eq_shift_mask h

theorem ofNat_byteLane_toNat (n i : Nat) : (BitVec.ofNat 32 (byteLane n i)).toNat = byteLane n i :=
  Nat.mod_eq_of_lt ((byteLane_lt n i).trans (by decide))

theorem byteLane_le (n i : Nat) : byteLane n i ≤ 255 := Nat.le_of_lt_succ (byteLane_lt n i)

/-- Packing the lanes of a 24-bit number gives it back. -/
theorem packRgb_byteLane {n : Nat} (h : n < 2 ^ 24) : packRgbNumber (byteLane n 2) (byteLane n 1) (byteLane n 0) = n := by
  unfold packRgbNumber byteLane; omega

theorem packRgba_byteLane {n : Nat} (h : n < 2 ^ 32) :
    packRgbaNumber (byteLane n 3) (byteLane n 2) (byteLane n 1) (byteLane n 0) = n := by
  unfold packRgbaNumber byteLane; omega

/-- A value below 2^32 is what its result register then holds (00_scope.md R14). -/
theorem setRes_get_self_toNat (s : State) (i : Fin 4) {v : Nat} (h : v < 2 ^ 32) : (s.setRes i v).res[i].toNat = v := by
  rw [setRes_get, if_pos rfl]
  exact Nat.mod_eq_of_lt h

/-! ### What a command left in the result registers -/

section

variable {s t : State}

theorem packRgb_result (hexec : exec .packRgb s = .next t) (hchannels : ¬s.ops.channelTooBig 3) :
    t.err = false ∧
      t.res[0].toNat = packRgbNumber s.ops.args[0].toNat s.ops.args[1].toNat s.ops.args[2].toNat := by
  obtain ⟨hr, hg, hb⟩ := not_channelTooBig_three.mp hchannels
  have hlt := (packRgbNumber_lt hr hg hb).trans_le (Nat.pow_le_pow_right (by decide) (by decide : 24 ≤ 32))
  rw [packRgb_commits hchannels, finish_eq] at hexec
  cases hexec
  exact ⟨rfl, setRes_get_self_toNat s 0 hlt⟩

theorem packRgba_result (hexec : exec .packRgba s = .next t) (hchannels : ¬s.ops.channelTooBig 4) :
    t.err = false ∧
      t.res[0].toNat =
        packRgbaNumber s.ops.args[0].toNat s.ops.args[1].toNat s.ops.args[2].toNat s.ops.args[3].toNat := by
  obtain ⟨hr, hg, hb, ha⟩ := not_channelTooBig_four.mp hchannels
  have hlt := packRgbaNumber_lt hr hg hb ha
  rw [packRgba_commits hchannels, finish_eq] at hexec
  cases hexec
  exact ⟨rfl, setRes_get_self_toNat s 0 hlt⟩

theorem unpackRgb_result (hexec : exec .unpackRgb s = .next t) :
    t.res[0].toNat = byteLane s.ops.args[0].toNat 2 ∧ t.res[1].toNat = byteLane s.ops.args[0].toNat 1 ∧
      t.res[2].toNat = byteLane s.ops.args[0].toNat 0 := by
  rw [unpackRgb_commits, finish_eq] at hexec
  cases hexec
  obtain ⟨h0, h1, h2, -⟩ := setRgb_get s s.ops.args[0].toNat
  rw [complete_res, h0, h1, h2]
  exact ⟨ofNat_byteLane_toNat .., ofNat_byteLane_toNat .., ofNat_byteLane_toNat ..⟩

theorem unpackRgba_result (hexec : exec .unpackRgba s = .next t) :
    t.res[0].toNat = byteLane s.ops.args[0].toNat 3 ∧ t.res[1].toNat = byteLane s.ops.args[0].toNat 2 ∧
      t.res[2].toNat = byteLane s.ops.args[0].toNat 1 ∧ t.res[3].toNat = byteLane s.ops.args[0].toNat 0 := by
  rw [unpackRgba_commits, finish_eq] at hexec
  cases hexec
  obtain ⟨h0, h1, h2, h3⟩ := setRgba_get s s.ops.args[0].toNat
  rw [complete_res, h0, h1, h2, h3]
  exact ⟨ofNat_byteLane_toNat .., ofNat_byteLane_toNat .., ofNat_byteLane_toNat .., ofNat_byteLane_toNat ..⟩

/-! ### One command after the other -/

variable {u v : State}

/-- UNPACK_RGB of the number PACK_RGB left gives its channels (R146). -/
theorem unpackRgb_packRgb (hpack : exec .packRgb s = .next t) (herr : t.err = false) (hu : u.ops.args[0] = t.res[0])
    (hunpack : exec .unpackRgb u = .next v) :
    v.res[0] = s.ops.args[0] ∧ v.res[1] = s.ops.args[1] ∧ v.res[2] = s.ops.args[2] := by
  have hchannels := not_of_no_error (by decide) (noError_of_exec hpack herr)
  obtain ⟨hr, hg, hb⟩ := not_channelTooBig_three.mp hchannels
  obtain ⟨-, hnumber⟩ := packRgb_result hpack hchannels
  obtain ⟨lane2, lane1, lane0⟩ := byteLane_packRgb hr hg hb
  obtain ⟨h0, h1, h2⟩ := unpackRgb_result hunpack
  rw [hu, hnumber] at h0 h1 h2
  exact ⟨BitVec.eq_of_toNat_eq (h0.trans lane2), BitVec.eq_of_toNat_eq (h1.trans lane1),
    BitVec.eq_of_toNat_eq (h2.trans lane0)⟩

/-- UNPACK_RGBA of the number PACK_RGBA left gives its channels (R146). -/
theorem unpackRgba_packRgba (hpack : exec .packRgba s = .next t) (herr : t.err = false)
    (hu : u.ops.args[0] = t.res[0]) (hunpack : exec .unpackRgba u = .next v) (k : Fin 4) :
    v.res[k] = s.ops.args[k] := by
  have hchannels := not_of_no_error (by decide) (noError_of_exec hpack herr)
  obtain ⟨hr, hg, hb, ha⟩ := not_channelTooBig_four.mp hchannels
  obtain ⟨-, hnumber⟩ := packRgba_result hpack hchannels
  obtain ⟨lane3, lane2, lane1, lane0⟩ := byteLane_packRgba hr hg hb ha
  obtain ⟨h0, h1, h2, h3⟩ := unpackRgba_result hunpack
  rw [hu, hnumber] at h0 h1 h2 h3
  apply BitVec.eq_of_toNat_eq
  match k with
  | 0 => exact h0.trans lane3
  | 1 => exact h1.trans lane2
  | 2 => exact h2.trans lane1
  | 3 => exact h3.trans lane0

/-- PACK_RGB of the channels UNPACK_RGB left gives the number, when it has 24 bits (R146). -/
theorem packRgb_unpackRgb (hunpack : exec .unpackRgb s = .next t) (hlt : s.ops.args[0].toNat < 2 ^ 24)
    (hu0 : u.ops.args[0] = t.res[0]) (hu1 : u.ops.args[1] = t.res[1]) (hu2 : u.ops.args[2] = t.res[2])
    (hpack : exec .packRgb u = .next v) : v.err = false ∧ v.res[0] = s.ops.args[0] := by
  obtain ⟨h0, h1, h2⟩ := unpackRgb_result hunpack
  rw [← hu0] at h0
  rw [← hu1] at h1
  rw [← hu2] at h2
  have hchannels : ¬u.ops.channelTooBig 3 := by
    rw [not_channelTooBig_three, h0, h1, h2]
    exact ⟨byteLane_le .., byteLane_le .., byteLane_le ..⟩
  obtain ⟨herr, hnumber⟩ := packRgb_result hpack hchannels
  rw [h0, h1, h2, packRgb_byteLane hlt] at hnumber
  exact ⟨herr, BitVec.eq_of_toNat_eq hnumber⟩

/-- PACK_RGBA of the channels UNPACK_RGBA left gives the number (R146). -/
theorem packRgba_unpackRgba (hunpack : exec .unpackRgba s = .next t) (hu : u.ops.args = t.res)
    (hpack : exec .packRgba u = .next v) : v.err = false ∧ v.res[0] = s.ops.args[0] := by
  obtain ⟨h0, h1, h2, h3⟩ := unpackRgba_result hunpack
  rw [← hu] at h0 h1 h2 h3
  have hchannels : ¬u.ops.channelTooBig 4 := by
    rw [not_channelTooBig_four, h0, h1, h2, h3]
    exact ⟨byteLane_le .., byteLane_le .., byteLane_le .., byteLane_le ..⟩
  obtain ⟨herr, hnumber⟩ := packRgba_result hpack hchannels
  rw [h0, h1, h2, h3, packRgba_byteLane s.ops.args[0].isLt] at hnumber
  exact ⟨herr, BitVec.eq_of_toNat_eq hnumber⟩

end

/-! ### The obligations -/

/-- Settles O17: the one result write of channels in range, and the check of the others. -/
theorem packRgbPacksThreeChannels : Obligations.PackRgbPacksThreeChannels := by
  refine ⟨by decide, fun s => ⟨fun hr hg hb => ?_, fun h => ?_⟩⟩
  · have hchannels : ¬s.ops.channelTooBig 3 := not_channelTooBig_three.mpr ⟨hr, hg, hb⟩
    obtain ⟨t, hexec, hsucc, hres, htext, hpalette⟩ := exec_succeeds (i := .packRgb) (if_neg hchannels) (Nat.zero_le _)
    obtain ⟨-, hnumber⟩ := packRgb_result hexec hchannels
    exact ⟨t, hexec, hsucc, hnumber, fun k hk => hres k (List.mem_singleton.not.mpr hk), htext rfl, hpalette rfl⟩
  · exact exec_raises (if_pos (channelTooBig_three_iff.mpr h)) (by decide)

/-- Settles O18: as O17, with four channels. -/
theorem packRgbaPacksFourChannels : Obligations.PackRgbaPacksFourChannels := by
  refine ⟨by decide, fun s => ⟨fun h => ?_, fun h => ?_⟩⟩
  · have hchannels := not_channelTooBig_four_of_forall h
    obtain ⟨t, hexec, hsucc, hres, htext, hpalette⟩ := exec_succeeds (i := .packRgba) (if_neg hchannels) (Nat.zero_le _)
    obtain ⟨-, hnumber⟩ := packRgba_result hexec hchannels
    exact ⟨t, hexec, hsucc, hnumber, fun k hk => hres k (List.mem_singleton.not.mpr hk), htext rfl, hpalette rfl⟩
  · exact exec_raises (if_pos (channelTooBig_four_iff.mpr h)) (by decide)

/-- Settles O19: the lanes the two commands write are shifts and masks of the word. -/
theorem unpackSplitsTheChannels : Obligations.UnpackSplitsTheChannels := by
  refine ⟨by decide, by decide, fun s => ⟨?_, ?_⟩⟩
  · obtain ⟨t, hexec, hsucc, hres, htext, hpalette⟩ :=
      exec_succeeds (i := .unpackRgb) (s := s) rfl (Nat.zero_le _)
    obtain ⟨h0, h1, h2⟩ := unpackRgb_result hexec
    exact ⟨t, hexec, hsucc, eq_shift_mask h0, eq_shift_mask h1, eq_shift_mask h2, hres 3 (by decide), htext rfl,
      hpalette rfl⟩
  · obtain ⟨t, hexec, hsucc, -, htext, hpalette⟩ :=
      exec_succeeds (i := .unpackRgba) (s := s) rfl (Nat.zero_le _)
    obtain ⟨h0, h1, h2, h3⟩ := unpackRgba_result hexec
    exact ⟨t, hexec, hsucc, eq_mask_shift (by decide) h0, eq_mask_shift (by decide) h1, eq_mask_shift (by decide) h2,
      eq_shift_mask h3, htext rfl, hpalette rfl⟩

/-- Settles O20: the lanes of a packed number are its channels, and packing the lanes of a number gives it back. -/
theorem packingIsBijective : Obligations.PackingIsBijective := fun _ _ _ _ =>
  ⟨unpackRgb_packRgb, unpackRgba_packRgba, packRgb_unpackRgb, packRgba_unpackRgba⟩

end Sys2Proof.Machine
end

section
/-! PROOFS. The text of a number as the write-back leaves it, and the encoders of channels (41_hex.md R169 to R174). -/

namespace Sys2Proof.Machine

open Sys2Proof.Claims

/-! ### The hex text in the buffer -/

theorem hexChar_toNat {n : Nat} (h : n < 16) : (hexChar n).toNat = hexCharacter n := by
  revert n; decide

@[simp] theorem hexText_length (k n : Nat) : (hexText k n).length = k + 1 := by simp [hexText]

/-- Byte j of the text, after the '#': a digit, or nothing past the last one. -/
theorem hexText_getD (k n j : Nat) :
    ((hexText k n).getD (j + 1) 0).toNat = if j < k then hexCharacter (n / 16 ^ (k - 1 - j) % 16) else 0 := by
  rw [hexText, List.getD_cons_succ]
  split
  case isTrue hj =>
    rw [List.getD_eq_getElem _ _ (by simpa using hj), hexDigits_getElem, hexChar_toNat (Nat.mod_lt _ (by decide))]
  case isFalse hj => rw [List.getD_eq_default _ _ (by simpa using hj)]; rfl

/-- A write-back of '#' and k digits of a number leaves that text, when its length fits STRLEN (R170). -/
theorem holdsHex_writeBack (s : State) {k : Nat} (hk : k < 255) (n : Nat) :
    holdsHex (s.writeBack (hexText k n)) k n := by
  refine ⟨?_, ?_, fun j hj => ?_⟩
  · rw [writeBack_strlen, hexText_length, BitVec.toNat_ofNat, Nat.mod_eq_of_lt (by omega)]
  · exact congrArg BitVec.toNat (writeBack_get s (hexText k n) 0)
  · obtain ⟨i, hi⟩ : ∃ i, j.val = i + 1 := ⟨j.val - 1, by omega⟩
    rw [writeBack_get, hi, hexText_getD, Nat.sub_sub, Nat.add_comm 1 i]
    rfl

/-! ### The obligation -/

/-- Settles O27: the text of the packed number for channels in range, and the check of the others. -/
theorem channelEncodersWriteTheirText : Obligations.ChannelEncodersWriteTheirText := by
  refine fun s => ⟨fun hr hg hb => ?_, fun h => ?_, fun h => ?_, fun h => ?_⟩
  · exact ⟨_, rgb2hex_commits (not_channelTooBig_three.mpr ⟨hr, hg, hb⟩), succeeded_complete (sameOutside_writeBack ..),
      rfl, ⟨rfl, rfl⟩, holdsHex_writeBack s (by decide) _⟩
  · exact exec_raises (if_pos (channelTooBig_three_iff.mpr h)) (by decide)
  · exact ⟨_, rgba2hex_commits (not_channelTooBig_four_of_forall h), succeeded_complete (sameOutside_writeBack ..),
      rfl, ⟨rfl, rfl⟩, holdsHex_writeBack s (by decide) _⟩
  · exact exec_raises (if_pos (channelTooBig_four_iff.mpr h)) (by decide)

end Sys2Proof.Machine
end

section
/-! PROOFS. The number decoders: the value of a well-formed body and where each command leaves it (41_hex.md R163 to R165,
R167, R168, R175). -/

namespace Sys2Proof.Machine

open Sys2Proof.Claims

/-! ### The value of a well-formed body -/

section

variable {o : Operands} {lengths : List Nat}

theorem foldSafe_stringBody (o : Operands) : foldSafe (stringBody o.text) = bodyValue o := foldSafe_eq_ofDigits _

/-- At most n digits denote a number below 16^n. -/
theorem bodyValue_lt {n : Nat} (hwell : ¬o.malformed lengths) (hn : ∀ k ∈ lengths, k ≤ n) : bodyValue o < 16 ^ n := by
  obtain ⟨-, hlength, hdigits⟩ := not_malformed_iff.mp hwell
  rw [← foldSafe_stringBody]
  exact (foldSafe_lt _ hdigits).trans_le (Nat.pow_le_pow_right (by decide) (hn _ hlength))

/-- The fast path loses nothing of a body of at most eight digits (R163). -/
theorem foldFast_stringBody (hwell : ¬o.malformed lengths) (hn : ∀ k ∈ lengths, k ≤ 8) :
    (foldFast (stringBody o.text)).toNat = bodyValue o := by
  obtain ⟨-, hlength, hdigits⟩ := not_malformed_iff.mp hwell
  rw [foldFast_eq_foldSafe _ hdigits (hn _ hlength), foldSafe_stringBody]

end

/-! ### What a decoder left in the result registers -/

section

variable {s t : State}

theorem hex2num_result (hexec : exec .hex2num s = .next t)
    (hwell : ¬s.ops.malformed [1, 2, 3, 4, 5, 6, 7, 8, 9, 10, 11, 12, 13]) :
    t.err = false ∧ t.res[0].toNat = bodyValue s.ops % 2 ^ 32 ∧ t.res[1].toNat = bodyValue s.ops / 2 ^ 32 := by
  have hlt : bodyValue s.ops < 16 ^ 13 := bodyValue_lt hwell (by decide)
  rw [hex2num_commits hwell, foldSafe_stringBody, finish_eq] at hexec
  cases hexec
  refine ⟨rfl, ?_, setRes_get_self_toNat _ 1 (by omega)⟩
  exact (congrArg BitVec.toNat (setRes_get _ 1 0 _)).trans (setRes_get_self_toNat s 0 (Nat.mod_lt _ (by decide)))

theorem hex2numFast_result (hexec : exec .hex2numFast s = .next t) (hwell : ¬s.ops.malformed [1, 2, 3, 4, 5, 6, 7]) :
    t.res[0].toNat = bodyValue s.ops := by
  have hlt : bodyValue s.ops < 16 ^ 7 := bodyValue_lt hwell (by decide)
  rw [hex2numFast_commits hwell, foldFast_stringBody hwell (by decide), finish_eq] at hexec
  cases hexec
  exact setRes_get_self_toNat s 0 (by omega)

theorem hex2rgb_result (hexec : exec .hex2rgb s = .next t) (hwell : ¬s.ops.malformed [3, 4, 6]) :
    t.res[0].toNat = byteLane (bodyValue s.ops) 2 ∧ t.res[1].toNat = byteLane (bodyValue s.ops) 1 ∧
      t.res[2].toNat = byteLane (bodyValue s.ops) 0 := by
  rw [hex2rgb_commits hwell, foldFast_stringBody hwell (by decide), finish_eq] at hexec
  cases hexec
  obtain ⟨h0, h1, h2, -⟩ := setRgb_get s (bodyValue s.ops)
  rw [complete_res, h0, h1, h2]
  exact ⟨ofNat_byteLane_toNat .., ofNat_byteLane_toNat .., ofNat_byteLane_toNat ..⟩

theorem hex2rgba_result (hexec : exec .hex2rgba s = .next t) (hwell : ¬s.ops.malformed [3, 4, 6, 8]) :
    t.res[0].toNat = byteLane (bodyValue s.ops) 3 ∧ t.res[1].toNat = byteLane (bodyValue s.ops) 2 ∧
      t.res[2].toNat = byteLane (bodyValue s.ops) 1 ∧ t.res[3].toNat = byteLane (bodyValue s.ops) 0 := by
  rw [hex2rgba_commits hwell, foldSafe_stringBody, finish_eq] at hexec
  cases hexec
  obtain ⟨h0, h1, h2, h3⟩ := setRgba_get s (bodyValue s.ops)
  rw [complete_res, h0, h1, h2, h3]
  exact ⟨ofNat_byteLane_toNat .., ofNat_byteLane_toNat .., ofNat_byteLane_toNat .., ofNat_byteLane_toNat ..⟩

end

/-! ### Lanes as quotients -/

theorem byteLane_zero (n : Nat) : byteLane n 0 = n % 256 := by rw [byteLane, pow_zero, Nat.div_one]

theorem byteLane_one (n : Nat) : byteLane n 1 = n / 2 ^ 8 % 256 := rfl

theorem byteLane_two (n : Nat) : byteLane n 2 = n / 2 ^ 16 % 256 := rfl

/-- The highest lane of a number is its quotient. -/
theorem byteLane_top {n i : Nat} (h : n < 256 ^ (i + 1)) : byteLane n i = n / 256 ^ i :=
  Nat.mod_eq_of_lt (Nat.div_lt_of_lt_mul (by rwa [← pow_succ]))

/-! ### The obligations -/

/-- Settles O21: the value of 1 to 13 digits, split at 2^32, and the check of every other string. -/
theorem hex2numFoldsUpToThirteenDigits : Obligations.Hex2numFoldsUpToThirteenDigits := by
  refine fun s => ⟨fun hwell => ?_, fun h => exec_raises (if_pos h) (by decide)⟩
  obtain ⟨t, hexec, hsucc, hres, htext, hpalette⟩ := exec_succeeds (i := .hex2num) (if_neg hwell) (Nat.zero_le _)
  obtain ⟨-, h0, h1⟩ := hex2num_result hexec hwell
  have hlt : bodyValue s.ops < 16 ^ 13 := bodyValue_lt hwell (by decide)
  exact ⟨t, hexec, hsucc, by omega, by omega, hres 2 (by decide), hres 3 (by decide), htext rfl, hpalette rfl⟩

/-- Settles O22: the fast fold of 1 to 7 digits is their value, and the check of every other string. -/
theorem hex2numFastFoldsUpToSevenDigits : Obligations.Hex2numFastFoldsUpToSevenDigits := by
  refine fun s => ⟨fun hwell => ?_, fun h => exec_raises (if_pos h) (by decide)⟩
  obtain ⟨t, hexec, hsucc, hres, htext, hpalette⟩ := exec_succeeds (i := .hex2numFast) (if_neg hwell) (Nat.zero_le _)
  exact ⟨t, hexec, hsucc, hex2numFast_result hexec hwell, bodyValue_lt (n := 7) hwell (by decide),
    fun k hk => hres k (List.mem_singleton.not.mpr hk), htext rfl, hpalette rfl⟩

/-- Settles O24: the three lanes of the value of 3, 4 or 6 digits, and the check of every other string. -/
theorem hex2rgbReadsOneNumber : Obligations.Hex2rgbReadsOneNumber := by
  refine fun s => ⟨fun hwell => ?_, fun h => exec_raises (if_pos h) (by decide)⟩
  obtain ⟨t, hexec, hsucc, hres, htext, hpalette⟩ := exec_succeeds (i := .hex2rgb) (if_neg hwell) (Nat.zero_le _)
  obtain ⟨h0, h1, h2⟩ := hex2rgb_result hexec hwell
  have hlt : bodyValue s.ops < 256 ^ 3 := bodyValue_lt (n := 6) hwell (by decide)
  exact ⟨t, hexec, hsucc, hlt, h0.trans (byteLane_top hlt), h1.trans (byteLane_one _), h2.trans (byteLane_zero _),
    hres 3 (by decide), htext rfl, hpalette rfl⟩

/-- Settles O25: the four lanes of the value of 3, 4, 6 or 8 digits, and the check of every other string. -/
theorem hex2rgbaReadsOneNumber : Obligations.Hex2rgbaReadsOneNumber := by
  refine fun s => ⟨fun hwell => ?_, fun h => exec_raises (if_pos h) (by decide)⟩
  obtain ⟨t, hexec, hsucc, -, htext, hpalette⟩ := exec_succeeds (i := .hex2rgba) (if_neg hwell) (Nat.zero_le _)
  obtain ⟨h0, h1, h2, h3⟩ := hex2rgba_result hexec hwell
  have hlt : bodyValue s.ops < 256 ^ 4 := bodyValue_lt (n := 8) hwell (by decide)
  exact ⟨t, hexec, hsucc, hlt, h0.trans (byteLane_top hlt), h1.trans (byteLane_two _), h2.trans (byteLane_one _),
    h3.trans (byteLane_zero _), htext rfl, hpalette rfl⟩

end Sys2Proof.Machine
end

section
/-! PROOFS. The strict validator: the digits by their codes (41_hex.md R160), and ISHEX as a leading '#' before a body of 3,
4, 6 or 8 digits (41_hex.md R166), by which it agrees with the decoders (41_hex.md R177). -/

namespace Sys2Proof.Machine

open Sys2Proof.Claims

/-! ### Digits by their codes -/

/-- The digit test of the model is that of the codes (R160). -/
theorem digitValue_le_iff {c : Byte} : digitValue c ≤ 15 ↔ hexDigitCode c := by
  unfold digitValue hexDigitCode
  dsimp only
  split_ifs <;> omega

theorem digitValue_eq_sixteen {c : Byte} (h : ¬hexDigitCode c) : digitValue c = 16 := by
  obtain ⟨hdecimal, h⟩ := not_or.mp h
  obtain ⟨hupper, hlower⟩ := not_or.mp h
  rw [digitValue, if_neg hdecimal, if_neg hupper, if_neg hlower]

/-! ### The string in the buffer -/

section

variable {o : Operands}

theorem text_length (hlen : o.strlen.toNat ≤ 16) : o.text.length = o.strlen.toNat := by
  simp [Operands.text, hlen]

theorem text_getElem {j : Nat} (hj : j < o.text.length) :
    o.text[j] = o.str[j]'(hj.trans_le (by simp [Operands.text])) := by
  simp [Operands.text]

/-- A string that starts with '#' has at least one byte, and the first is '#'. -/
theorem text_head_iff : o.text.head? = some hashChar ↔ 1 ≤ o.strlen.toNat ∧ o.str[0] = hashChar := by
  have hfirst : o.str.toList.head? = some o.str[0] := by simp [List.head?_eq_getElem?]
  rw [Operands.text, List.head?_take, hfirst]
  split
  case isTrue hzero => exact iff_of_false (by simp) (by omega)
  case isFalse hpos => rw [Option.some_inj]; exact (and_iff_right (by omega)).symm

/-- The body of a string that starts with '#' is the rest of it (R161). -/
theorem stringBody_of_hash {t : List Byte} (h : t.head? = some hashChar) : stringBody t = t.tail := by
  obtain ⟨rest, rfl⟩ := List.head?_eq_some_iff.mp h
  rfl

/-- The body of a string that starts with '#' has one byte less than the string. -/
theorem stringBody_length_of_hash (hlen : o.strlen.toNat ≤ 16) (hhash : o.text.head? = some hashChar) :
    (stringBody o.text).length = o.strlen.toNat - 1 := by
  rw [stringBody_of_hash hhash, List.length_tail, text_length hlen]

/-- The body bytes of a string that starts with '#' are the buffer's from the second on. -/
theorem forall_stringBody_of_hash (hlen : o.strlen.toNat ≤ 16) (hhash : o.text.head? = some hashChar)
    (p : Byte → Prop) :
    (∀ c ∈ stringBody o.text, p c) ↔ ∀ j : Fin 16, 1 ≤ j.val → j.val < o.strlen.toNat → p o.str[j] := by
  rw [stringBody_of_hash hhash, List.forall_mem_iff_forall_getElem]
  simp only [List.length_tail, List.getElem_tail, text_length hlen, text_getElem]
  constructor
  · intro h j hj1 hj
    have hbyte := h (j.val - 1) (by omega)
    simpa only [Nat.sub_add_cancel hj1, Fin.getElem_fin] using hbyte
  · exact fun h i hi => h ⟨i + 1, by omega⟩ (Nat.le_add_left ..) (by dsimp only; omega)

/-! ### The validator -/

/-- The validator accepts a leading '#' before a body that HEX2RGBA accepts (R166, R177). -/
theorem isHexString_iff : isHexString o = true ↔ o.text.head? = some hashChar ∧ ¬o.malformed [3, 4, 6, 8] := by
  rw [not_malformed_iff, isHexString]
  cases o.text with
  | nil => simp
  | cons c rest =>
    by_cases hc : c = hashChar
    · subst hc; simp [stringBody, isHexDigit]
    · simp [hc]

/-- The validator's condition byte by byte (R166). -/
theorem isHexString_iff_bytes :
    isHexString o = true ↔ o.strlen.toNat ≤ 16 ∧ 1 ≤ o.strlen.toNat ∧ o.str[0] = hashChar ∧
      o.strlen.toNat - 1 ∈ [3, 4, 6, 8] ∧
      ∀ j : Fin 16, 1 ≤ j.val → j.val < o.strlen.toNat → hexDigitCode o.str[j] := by
  rw [isHexString_iff, not_malformed_iff]
  simp only [digitValue_le_iff]
  constructor
  · rintro ⟨hhash, hlen, hlength, hdigits⟩
    obtain ⟨hpos, hfirst⟩ := text_head_iff.mp hhash
    rw [stringBody_length_of_hash hlen hhash] at hlength
    exact ⟨hlen, hpos, hfirst, hlength, (forall_stringBody_of_hash hlen hhash _).mp hdigits⟩
  · rintro ⟨hlen, hpos, hfirst, hlength, hdigits⟩
    have hhash := text_head_iff.mpr ⟨hpos, hfirst⟩
    rw [← stringBody_length_of_hash hlen hhash] at hlength
    exact ⟨hhash, hlen, hlength, (forall_stringBody_of_hash hlen hhash _).mpr hdigits⟩

end

/-! ### ISHEX and the decoders -/

section

variable {s t : State}

theorem isHex_result (hexec : exec .isHex s = .next t) : t.res[0] = BitVec.ofNat 32 (isHexString s.ops).toNat := by
  rw [isHex_commits, finish_eq] at hexec
  cases hexec
  exact (setRes_get s 0 0 _).trans (if_pos rfl)

theorem isHex_result_one (hexec : exec .isHex s = .next t) (h : isHexString s.ops = true) : t.res[0] = 1 := by
  rw [isHex_result hexec, h]; rfl

theorem isHex_result_zero (hexec : exec .isHex s = .next t) (h : ¬isHexString s.ops = true) : t.res[0] = 0 := by
  rw [isHex_result hexec, eq_false_of_ne_true h]; rfl

theorem isHexAnswersOne_iff : isHexAnswersOne s ↔ isHexString s.ops = true := by
  constructor
  · rintro ⟨t, hexec, hone⟩
    by_contra h
    exact absurd (hone.symm.trans (isHex_result_zero hexec h)) (by decide)
  · exact fun h => ⟨_, isHex_commits, isHex_result_one isHex_commits h⟩

/-- A command without draws succeeds exactly when its operands call for no error. -/
theorem succeeds_iff {i : Instr} (hdraws : i.draws = 0) : succeeds i s ↔ commandError s.cfg i s.ops = .none := by
  constructor
  · rintro ⟨t, hexec, hsucc⟩
    exact noError_of_exec hexec hsucc.err
  · intro herror
    obtain ⟨t, hexec, hsucc, -⟩ := exec_succeeds herror (hdraws.trans_le (Nat.zero_le _))
    exact ⟨t, hexec, hsucc⟩

theorem noError_iff {p : Prop} [Decidable p] {c : ErrCode} (hc : c ≠ .none) :
    (if p then c else .none) = .none ↔ ¬p := ⟨not_of_no_error hc, fun h => if_neg h⟩

theorem hex2num_succeeds_iff :
    succeeds .hex2num s ↔ ¬s.ops.malformed [1, 2, 3, 4, 5, 6, 7, 8, 9, 10, 11, 12, 13] :=
  (succeeds_iff rfl).trans (noError_iff (by decide))

theorem hex2rgb_succeeds_iff : succeeds .hex2rgb s ↔ ¬s.ops.malformed [3, 4, 6] :=
  (succeeds_iff rfl).trans (noError_iff (by decide))

theorem hex2rgba_succeeds_iff : succeeds .hex2rgba s ↔ ¬s.ops.malformed [3, 4, 6, 8] :=
  (succeeds_iff rfl).trans (noError_iff (by decide))

end

/-- A string well formed for a decoder is so for one that accepts its body's length. -/
theorem not_malformed_of_mem {o : Operands} {lengths lengths' : List Nat} (hwell : ¬o.malformed lengths)
    (hmem : (stringBody o.text).length ∈ lengths') : ¬o.malformed lengths' := by
  obtain ⟨hlen, -, hdigits⟩ := not_malformed_iff.mp hwell
  exact not_malformed_iff.mpr ⟨hlen, hmem, hdigits⟩

theorem length_mem_of_not_malformed {o : Operands} {lengths : List Nat} (hwell : ¬o.malformed lengths) :
    (stringBody o.text).length ∈ lengths := by
  obtain ⟨-, hlength, -⟩ := not_malformed_iff.mp hwell
  exact hlength

theorem not_malformed_mono {o : Operands} {lengths lengths' : List Nat} (hwell : ¬o.malformed lengths)
    (hsub : lengths ⊆ lengths') : ¬o.malformed lengths' :=
  not_malformed_of_mem hwell (hsub (length_mem_of_not_malformed hwell))

/-! ### The obligations -/

/-- Settles O23: the digit test is that of the codes, and the validator's string is told byte by byte. -/
theorem isHexValidatesTheShape : Obligations.IsHexValidatesTheShape := by
  refine ⟨fun c => ⟨fun h => if_pos h, fun h => ?_, fun h => ?_, digitValue_eq_sixteen⟩, fun s => ?_⟩
  · rw [digitValue, if_neg (by omega), if_pos h]
  · rw [digitValue, if_neg (by omega), if_neg (by omega), if_pos h]
  obtain ⟨t, hexec, hsucc, hres, htext, hpalette⟩ := exec_succeeds (i := .isHex) (s := s) rfl (Nat.zero_le _)
  refine ⟨t, hexec, hsucc, ?_, fun k hk => hres k (List.mem_singleton.not.mpr hk), htext rfl, hpalette rfl⟩
  have hbytes := isHexString_iff_bytes (o := s.ops)
  simp only [List.mem_cons, List.not_mem_nil, or_false] at hbytes
  exact ⟨fun hok => isHex_result_one hexec (hbytes.mpr hok),
    fun hbad => isHex_result_zero hexec (hbytes.not.mpr hbad)⟩

/-- Settles O30: ISHEX is the leading '#' and HEX2RGBA's check, whose body lengths HEX2NUM accepts and HEX2RGB accepts in
part. -/
theorem isHexAndTheDecodersAgree : Obligations.IsHexAndTheDecodersAgree := by
  intro s
  rw [isHexAnswersOne_iff, isHexString_iff, hex2num_succeeds_iff, hex2rgb_succeeds_iff, hex2rgba_succeeds_iff]
  refine ⟨fun ⟨_, hwell⟩ => not_malformed_mono hwell (by decide), And.right, fun ⟨_, hwell⟩ => ?_, fun _ hhash => ?_, ?_⟩
  · exact ⟨length_mem_of_not_malformed, not_malformed_of_mem hwell⟩
  · exact (and_iff_right hhash).symm
  · intro hdecodes hno hhash
    exact hno ⟨hhash, hdecodes.elim (not_malformed_mono · (by decide)) id⟩

end Sys2Proof.Machine
end

section
/-! PROOFS. The encoders of numbers (41_hex.md R170 to R172), and that decoding and encoding undo each other
(41_hex.md R176). -/

namespace Sys2Proof.Machine

open Sys2Proof.Claims

/-! ### Reading back what a write-back left -/

/-- The buffer begins with the text written back, when it fits (R170). -/
theorem writeBack_str_take (s : State) {text : List Byte} (hfits : text.length ≤ 16) :
    (s.writeBack text).str.toList.take text.length = text := by
  apply List.ext_getElem
  · simpa using hfits
  · intro j _ hj
    simp [hj]

theorem writeBack_strlen_toNat (s : State) {text : List Byte} (hfits : text.length ≤ 16) :
    (s.writeBack text).strlen.toNat = text.length := by
  rw [writeBack_strlen]
  exact Nat.mod_eq_of_lt (by omega)

/-- Operands that hold the string of a write-back hold its text. -/
theorem text_of_writeBack {s : State} {o : Operands} {text : List Byte} (hfits : text.length ≤ 16)
    (hstrlen : o.strlen = (s.writeBack text).strlen) (hstr : o.str = (s.writeBack text).str) : o.text = text := by
  rw [Operands.text, hstrlen, writeBack_strlen_toNat s hfits, hstr, writeBack_str_take s hfits]

/-! ### The text of a number as a string to decode -/

@[simp] theorem stringBody_hexText (k n : Nat) : stringBody (hexText k n) = hexDigits k n := rfl

section

variable {o : Operands} {k n : Nat}

/-- The k digits of a number denote it modulo 16^k. -/
theorem bodyValue_hexText (htext : o.text = hexText k n) : bodyValue o = n % 16 ^ k := by
  rw [← foldSafe_stringBody, htext, stringBody_hexText, foldSafe_hexDigits]

theorem not_malformed_hexText {lengths : List Nat} (hlen : o.strlen.toNat ≤ 16) (htext : o.text = hexText k n)
    (hk : k ∈ lengths) : ¬o.malformed lengths := by
  rw [not_malformed_iff, htext, stringBody_hexText, hexDigits_length]
  exact ⟨hlen, hk, hexDigits_digit k n⟩

end

/-! ### What an encoder left in the buffer -/

/-- A command that commits '#' and k digits of a number leaves that text, and its other outputs alone (R170). -/
theorem hexText_committed {i : Instr} {s : State} {k n : Nat} (hk : k < 255)
    (hexec : exec i s = finish (s.writeBack (hexText k n))) :
    ∃ t, exec i s = .next t ∧ Succeeded s t ∧ holdsHex t k n ∧ t.res = s.res ∧ SamePalette s t :=
  ⟨_, hexec, succeeded_complete (sameOutside_writeBack ..), holdsHex_writeBack s hk n, rfl, ⟨rfl, rfl⟩⟩

/-- NUM2HEX6 leaves seven bytes, '#' and the six digits of its number (R171). -/
theorem num2hex6_result {s t : State} (hexec : exec .num2hex6 s = .next t) :
    t.err = false ∧ t.strlen = 7 ∧ t.str.toList.take 7 = hexText 6 s.ops.args[0].toNat := by
  rw [num2hex6_commits, finish_eq] at hexec
  cases hexec
  have htake := writeBack_str_take s (text := hexText 6 s.ops.args[0].toNat) (by simp)
  rw [hexText_length] at htake
  exact ⟨rfl, congrArg (BitVec.ofNat 8) (hexText_length 6 _), htake⟩

/-- Operands that hold the string NUM2HEX8 left hold the eight digits of its number. -/
theorem num2hex8_result {s t : State} {o : Operands} (hexec : exec .num2hex8 s = .next t) (hstrlen : o.strlen = t.strlen)
    (hstr : o.str = t.str) : o.text = hexText 8 s.ops.args[0].toNat ∧ o.strlen.toNat ≤ 16 := by
  rw [num2hex8_commits, finish_eq] at hexec
  cases hexec
  have hfits : (hexText 8 s.ops.args[0].toNat).length ≤ 16 := by simp
  exact ⟨text_of_writeBack hfits (s := s) hstrlen hstr, hstrlen ▸ (writeBack_strlen_toNat s hfits).trans_le hfits⟩

/-! ### Digits written in lowercase -/

/-- The character written for the value of a hex digit is that digit in lowercase (R160, R169). -/
theorem hexChar_digitValue {c : Byte} (h : digitValue c ≤ 15) : hexChar (digitValue c) = lowercase c := by
  revert c; decide

/-- Writing the digits of a body's value writes the body in lowercase. -/
theorem hexDigits_foldSafe (b : List Byte) (h : ∀ c ∈ b, digitValue c ≤ 15) :
    hexDigits b.length (foldSafe b) = b.map lowercase := by
  induction b using List.reverseRecOn with
  | nil => rfl
  | append_singleton b c ih =>
    have hc := h c (by simp)
    have hinit := ih fun x hx => h x (by simp [hx])
    have hdiv : (foldSafe b * 16 + digitValue c) / 16 = foldSafe b := by omega
    have hmod : (foldSafe b * 16 + digitValue c) % 16 = digitValue c := by omega
    rw [foldSafe_append, List.length_append, List.length_singleton, hexDigits, hdiv, hmod, hinit,
      hexChar_digitValue hc, List.map_append, List.map_singleton]

/-! ### HEX2RGB and then PACK_RGB -/

theorem packRgb_of_lanes {p q : State} {n : Nat} (hlt : n < 2 ^ 24) (h0 : p.ops.args[0].toNat = byteLane n 2)
    (h1 : p.ops.args[1].toNat = byteLane n 1) (h2 : p.ops.args[2].toNat = byteLane n 0)
    (hpack : exec .packRgb p = .next q) : q.res[0].toNat = n := by
  have hchannels : ¬p.ops.channelTooBig 3 := by
    rw [not_channelTooBig_three, h0, h1, h2]
    exact ⟨byteLane_le .., byteLane_le .., byteLane_le ..⟩
  obtain ⟨-, hnumber⟩ := packRgb_result hpack hchannels
  rw [hnumber, h0, h1, h2, packRgb_byteLane hlt]

/-- PACK_RGB of the channels HEX2RGB left gives the body's value (R167, R176). -/
theorem packRgb_hex2rgb {s t p q : State} (hdecode : exec .hex2rgb s = .next t) (hwell : ¬s.ops.malformed [3, 4, 6])
    (hp : ∀ k : Fin 4, k.val < 3 → p.ops.args[k] = t.res[k]) (hpack : exec .packRgb p = .next q) :
    q.res[0].toNat = bodyValue s.ops := by
  obtain ⟨h0, h1, h2⟩ := hex2rgb_result hdecode hwell
  have hp' (k : Fin 4) (hk : k.val < 3) : p.ops.args[k].toNat = t.res[k].toNat := congrArg BitVec.toNat (hp k hk)
  exact packRgb_of_lanes (bodyValue_lt (n := 6) hwell (by decide)) ((hp' 0 (by decide)).trans h0)
    ((hp' 1 (by decide)).trans h1) ((hp' 2 (by decide)).trans h2) hpack

/-! ### The obligations -/

/-- Settles O26: the write-back of '#' and the digits of the number. -/
theorem numberEncodersWriteTheirText : Obligations.NumberEncodersWriteTheirText := fun _ =>
  ⟨hexText_committed (by decide) num2hex6_commits, hexText_committed (by decide) num2hex8_commits⟩

/-- Settles O28: the string left is eight hex digits, whose value is the number. -/
theorem num2hex8ThenHex2numReturnsTheNumber : Obligations.Num2hex8ThenHex2numReturnsTheNumber := by
  intro s t u v hencode hstrlen hstr hdecode
  obtain ⟨htext, hlen⟩ := num2hex8_result hencode hstrlen hstr
  have hlt := s.ops.args[0].isLt
  have hvalue : bodyValue u.ops = s.ops.args[0].toNat := (bodyValue_hexText htext).trans (Nat.mod_eq_of_lt hlt)
  obtain ⟨herr, h0, h1⟩ := hex2num_result hdecode (not_malformed_hexText hlen htext (by decide))
  rw [hvalue] at h0 h1
  exact ⟨herr, BitVec.eq_of_toNat_eq (h0.trans (Nat.mod_eq_of_lt hlt)),
    BitVec.eq_of_toNat_eq (h1.trans (Nat.div_eq_of_lt hlt))⟩

/-- Settles O29: on each route ARG0 is the value of the six digits, and writing it writes them in lowercase. -/
theorem sixDigitStringsNormalise : Obligations.SixDigitStringsNormalise := by
  intro s t p q u v hsix hlen hdigits hencode hroute
  have hwell (lengths : List Nat) (hmem : 6 ∈ lengths) : ¬s.ops.malformed lengths :=
    not_malformed_iff.mpr ⟨hlen, hsix.symm ▸ hmem, hdigits⟩
  have hlt : bodyValue s.ops < 16 ^ 6 := bodyValue_lt (hwell [6] (by decide)) (by decide)
  have hnumber : u.ops.args[0].toNat = bodyValue s.ops := by
    rcases hroute with ⟨hdecode, hu⟩ | ⟨hdecode, hu⟩ | ⟨hdecode, hp, hpack, hu⟩
    · obtain ⟨-, h0, -⟩ := hex2num_result hdecode (hwell _ (by decide))
      rw [hu, h0]
      exact Nat.mod_eq_of_lt (by omega)
    · rw [hu]
      exact hex2numFast_result hdecode (hwell _ (by decide))
    · rw [hu]
      exact packRgb_hex2rgb hdecode (hwell _ (by decide)) hp hpack
  obtain ⟨herr, hstrlen, htext⟩ := num2hex6_result hencode
  refine ⟨herr, hstrlen, htext.trans ?_⟩
  rw [hnumber, ← foldSafe_stringBody, hexText, ← hsix, hexDigits_foldSafe _ hdigits]
  rfl

end Sys2Proof.Machine
end

section
/-! PROOFS. HSV2RGB's integer datapath computes the source's rational formulas, for every hue given as a quotient
(42_hsv.md R200 to R202). -/

namespace Sys2Proof.Machine

open Sys2Proof.Claims

/-- Three natural numbers as the integers that the claims speak of. -/
def intTriple (t : Nat × Nat × Nat) : ℤ × ℤ × ℤ := (t.1, t.2.1, t.2.2)

theorem nearest_natCast_div {n d : Nat} (hd : 0 < d) : nearest ((n : ℚ) / d) = roundHalfUp n d :=
  (roundHalfUp_eq_floor n d hd).symm

/-! ### The datapath by its parts -/

/-- How far the middle channel stands above the lowest one, in parts of `w`, at the hue of n/w sectors: it rises through
the even sectors and falls through the odd ones (R201). -/
def sectorRise (n w : Nat) : Nat := if n / w % 2 = 0 then n % w else w - n % w

/-- One output channel of the datapath, at g parts of `w` between the lowest and the highest channel (R201). -/
def hsvChannel (w sat val g : Nat) : Nat := roundHalfUp (255 * val * (sat * g + (100 - sat) * w)) (10000 * w)

theorem hsvCore_eq (n d sat val : Nat) :
    hsvCore n d sat val = sectorTriple (n / (60 * d)) (hsvChannel (60 * d) sat val (60 * d))
      (hsvChannel (60 * d) sat val (sectorRise n (60 * d))) (hsvChannel (60 * d) sat val 0) := rfl

/-! ### Each part over the rationals -/

section

variable {n w : Nat}

theorem natCast_div_eq_sector_add (hw : 0 < w) : (n : ℚ) / w = (n / w : Nat) + (n % w : Nat) / w := by
  have hw' : (w : ℚ) ≠ 0 := by positivity
  have hsplit : ((w * (n / w) + n % w : Nat) : ℚ) = n := congrArg _ (Nat.div_add_mod n w)
  rw [div_eq_iff hw', add_mul, div_mul_cancel₀ _ hw', ← hsplit]
  push_cast
  ring

/-- Two sectors make one period of the source's wave. -/
theorem floor_period (n w : Nat) : ⌊(n : ℚ) / (2 * w)⌋ = (n / w / 2 : Nat) := by
  rw [Nat.div_div_eq_div_mul, mul_comm w 2]
  exact_mod_cast Rat.floor_natCast_div_natCast n (2 * w)

/-- The source's triangle wave is the datapath's rise and fall. -/
theorem triangleWave_eq (hw : 0 < w) :
    1 - |(n : ℚ) / w - 2 * ⌊(n : ℚ) / (2 * w)⌋ - 1| = (sectorRise n w : ℚ) / w := by
  have hw' : (0 : ℚ) < w := by exact_mod_cast hw
  have hrem : n % w ≤ w := (Nat.mod_lt n hw).le
  have hfrac : ((n % w : Nat) : ℚ) / w ≤ 1 := (div_le_one hw').mpr (by exact_mod_cast hrem)
  have hpos : 0 ≤ ((n % w : Nat) : ℚ) / w := by positivity
  have hparity : ((n / w : Nat) : ℚ) = 2 * (n / w / 2 : Nat) + (n / w % 2 : Nat) := by
    exact_mod_cast (Nat.div_add_mod (n / w) 2).symm
  rw [floor_period, natCast_div_eq_sector_add hw, hparity, sectorRise, Int.cast_natCast]
  rcases Nat.mod_two_eq_zero_or_one (n / w) with heven | hodd
  · rw [heven, if_pos rfl, abs_of_nonpos (by push_cast; linarith)]
    push_cast
    ring
  · rw [hodd, if_neg (by decide), abs_of_nonneg (by push_cast; linarith), Nat.cast_sub hrem, sub_div,
      div_self hw'.ne']
    push_cast
    ring

/-- The source scales the chroma and adds the lowest channel; the datapath computes the same quotient in one go. -/
theorem nearest_channel {sat : Nat} (val g : Nat) (hw : 0 < w) (hs : sat ≤ 100) :
    nearest (255 * ((val : ℚ) / 100 * (sat / 100) * (g / w) + (val / 100 - val / 100 * (sat / 100)))) =
      hsvChannel w sat val g := by
  have hw' : (w : ℚ) ≠ 0 := by positivity
  rw [hsvChannel, ← nearest_natCast_div (by omega)]
  congr 1
  push_cast [Nat.cast_sub hs]
  field_simp
  ring

end

/-! ### The source's formulas -/

/-- The source's sector table: the channels of sector i out of the highest, the middle and the lowest one (R202). -/
def sectorTable (i high middle low : ℤ) : ℤ × ℤ × ℤ :=
  match i with
  | 0 => (high, middle, low)
  | 1 => (middle, high, low)
  | 2 => (low, high, middle)
  | 3 => (low, middle, high)
  | 4 => (middle, low, high)
  | _ => (high, low, middle)

theorem hsvToRgb_eq (h s v : ℚ) :
    hsvToRgb h s v = sectorTable ⌊h / 60⌋ (nearest (255 * (v * s + (v - v * s))))
      (nearest (255 * (v * s * (1 - |h / 60 - 2 * ⌊h / 120⌋ - 1|) + (v - v * s))))
      (nearest (255 * (0 + (v - v * s)))) := rfl

theorem intTriple_sectorTriple (i high middle low : Nat) :
    intTriple (sectorTriple i high middle low) = sectorTable i high middle low := by
  match i with
  | 0 | 1 | 2 | 3 | 4 | _ + 5 => rfl

/-- The datapath computes the source's formulas exactly and rounds each channel once (R200 to R202). -/
theorem hsvCore_eq_hsvToRgb {n d sat : Nat} (val : Nat) (hd : 0 < d) (hs : sat ≤ 100) :
    intTriple (hsvCore n d sat val) = hsvToRgb ((n : ℚ) / d) (sat / 100) (val / 100) := by
  have hw : 0 < 60 * d := by omega
  have hw' : ((60 * d : Nat) : ℚ) ≠ 0 := by positivity
  have hsector : (n : ℚ) / d / 60 = n / (60 * d : Nat) := by push_cast; rw [div_div, mul_comm]
  have hperiod : (n : ℚ) / d / 120 = n / (2 * (60 * d : Nat)) := by push_cast; rw [div_div]; ring
  have hfloor : ⌊(n : ℚ) / (60 * d : Nat)⌋ = (n / (60 * d) : Nat) := Rat.floor_natCast_div_natCast n (60 * d)
  have hhigh := nearest_channel val (60 * d) hw hs
  have hmiddle := nearest_channel val (sectorRise n (60 * d)) hw hs
  have hlow := nearest_channel val 0 hw hs
  rw [div_self hw', mul_one] at hhigh
  rw [← triangleWave_eq hw] at hmiddle
  rw [Nat.cast_zero, zero_div, mul_zero] at hlow
  rw [hsvCore_eq, intTriple_sectorTriple, hsvToRgb_eq, hsector, hperiod, hfloor, hhigh, hmiddle, hlow]

end Sys2Proof.Machine
end

section
/-! PROOFS. RGB2HSV's integer datapath computes the source's rational formulas and stays in its ranges (42_hsv.md R200,
R204, R205). -/

namespace Sys2Proof.Machine

open Sys2Proof.Claims

section

variable {r g b : Nat}

/-! ### The three outputs over the rationals -/

/-- A hue of t sixths of a turn, given over d, rounded to degrees. -/
theorem nearest_sixths {x : Int} {d : Nat} {t : ℚ} (hd : 0 < d) (hx : 0 ≤ x) (ht : (x : ℚ) = 60 * t * d) :
    nearest (t / 6 * 360) = roundHalfUp x.toNat d := by
  have hd' : (d : ℚ) ≠ 0 := by positivity
  have hcast : ((x.toNat : Nat) : ℚ) = x := by exact_mod_cast Int.toNat_of_nonneg hx
  rw [← nearest_natCast_div hd, hcast, ht]
  congr 1
  field_simp
  ring

/-- The hue by the piece of the maximum channel (R204). -/
theorem rgbCore_hue : ((rgbCore r g b).1 : ℤ) = (rgbToHsv r g b).1 := by
  dsimp only [rgbCore, rgbToHsv]
  generalize hmx : max r (max g b) = mx
  generalize hmn : min r (min g b) = mn
  by_cases hgrey : mx = mn
  · rw [if_pos (by omega), if_pos hgrey]
    norm_num [nearest]
  have hle : mn ≤ mx := by omega
  rw [← Nat.cast_sub hle]
  generalize hdiff : mx - mn = d
  have hd : 0 < d := by omega
  have hd' : (d : ℚ) ≠ 0 := by positivity
  rw [if_neg hd.ne', if_neg hgrey, hueNumerator]
  symm
  -- The four pieces, of which the one with g < b has the extra turn.
  split_ifs <;> exact nearest_sixths hd (by omega) (by push_cast; field_simp; ring)

theorem rgbCore_saturation : ((rgbCore r g b).2.1 : ℤ) = (rgbToHsv r g b).2.1 := by
  dsimp only [rgbCore, rgbToHsv]
  by_cases hblack : max r (max g b) = 0
  · rw [if_pos hblack, if_pos hblack]; rfl
  · rw [if_neg hblack, if_neg hblack, ← nearest_natCast_div (by omega), Nat.cast_mul, Nat.cast_sub (by omega),
      div_mul_eq_mul_div, mul_comm]
    rfl

theorem rgbCore_value : ((rgbCore r g b).2.2 : ℤ) = (rgbToHsv r g b).2.2 := by
  dsimp only [rgbCore, rgbToHsv]
  rw [← nearest_natCast_div (by omega), Nat.cast_mul, div_mul_eq_mul_div, mul_comm]
  rfl

/-- The datapath computes the source's formulas exactly and rounds each output once (R200, R204). -/
theorem rgbCore_eq_rgbToHsv : intTriple (rgbCore r g b) = rgbToHsv r g b :=
  Prod.ext rgbCore_hue (Prod.ext rgbCore_saturation rgbCore_value)

/-! ### Its ranges -/

theorem rgbCore_hue_le : (rgbCore r g b).1 ≤ 360 := by
  dsimp only [rgbCore]
  split
  case isTrue => omega
  case isFalse hd =>
    refine roundHalfUp_le (by omega) ?_
    unfold hueNumerator
    split_ifs <;> omega

theorem rgbCore_saturation_le : (rgbCore r g b).2.1 ≤ 100 := by
  dsimp only [rgbCore]
  split
  case isTrue => omega
  case isFalse hmax => exact roundHalfUp_le (by omega) (by omega)

theorem rgbCore_value_le (hr : r ≤ 255) (hg : g ≤ 255) (hb : b ≤ 255) : (rgbCore r g b).2.2 ≤ 100 :=
  roundHalfUp_le (by omega) (by omega)

end

end Sys2Proof.Machine
end

section
/-! PROOFS. What the HSV converters leave in the result registers (42_hsv.md R200 to R205). -/

namespace Sys2Proof.Machine

open Sys2Proof.Claims

/-! ### The results of each command -/

section

variable {s t : State}

/-- A commit of three values below 2^32 leaves them in RES0 to RES2 (00_scope.md R14). -/
theorem setTriple_committed {i : Instr} {v : Nat × Nat × Nat} (hcommits : exec i s = finish (s.setTriple v))
    (hexec : exec i s = .next t) (h0 : v.1 < 2 ^ 32) (h1 : v.2.1 < 2 ^ 32) (h2 : v.2.2 < 2 ^ 32) :
    t.err = false ∧ t.res[0].toNat = v.1 ∧ t.res[1].toNat = v.2.1 ∧ t.res[2].toNat = v.2.2 := by
  rw [hcommits, finish_eq] at hexec
  cases hexec
  obtain ⟨hres0, hres1, hres2, -⟩ := setTriple_get s v
  rw [complete_res, hres0, hres1, hres2]
  exact ⟨rfl, Nat.mod_eq_of_lt h0, Nat.mod_eq_of_lt h1, Nat.mod_eq_of_lt h2⟩

theorem resTriple_eq {v : Nat × Nat × Nat} (h0 : t.res[0].toNat = v.1) (h1 : t.res[1].toNat = v.2.1)
    (h2 : t.res[2].toNat = v.2.2) : resTriple t = intTriple v := by
  rw [resTriple, h0, h1, h2]; rfl

/-- A percentage after its clamp, as a natural number (R203). -/
def percent (w : Word) : Nat := (clamp w.toInt 0 100).toNat

theorem percent_le (w : Word) : percent w ≤ 100 := by unfold percent clamp; omega

theorem percent_cast (w : Word) : (percent w : ℚ) = (min (max w.toInt 0) 100 : ℤ) := by
  have hpos : 0 ≤ clamp w.toInt 0 100 := by unfold clamp; omega
  exact_mod_cast Int.toNat_of_nonneg hpos

/-- A hue in whole degrees after its wrap into a turn, as a natural number (R203). -/
def degrees (w : Word) : Nat := (w.toInt % 360).toNat

theorem degrees_cast (w : Word) : (degrees w : ℚ) = (w.toInt % 360 : ℤ) := by
  exact_mod_cast Int.toNat_of_nonneg (Int.emod_nonneg w.toInt (by decide : (360 : ℤ) ≠ 0))

/-- The channels HSV2RGB computes from its operands (R203). -/
def hsvChannels (o : Operands) : Nat × Nat × Nat :=
  hsvCore (degrees o.args[0]) 1 (percent o.args[1]) (percent o.args[2])

theorem hsvChannels_le (o : Operands) :
    (hsvChannels o).1 ≤ 255 ∧ (hsvChannels o).2.1 ≤ 255 ∧ (hsvChannels o).2.2 ≤ 255 :=
  hsvCore_le (by decide) (percent_le _) (percent_le _)

theorem hsvChannels_eq_hsvToRgb (o : Operands) :
    intTriple (hsvChannels o) = hsvToRgb ((o.args[0].toInt % 360 : ℤ) : ℚ)
      ((min (max o.args[1].toInt 0) 100 : ℤ) / 100) ((min (max o.args[2].toInt 0) 100 : ℤ) / 100) := by
  rw [hsvChannels, hsvCore_eq_hsvToRgb _ (by decide) (percent_le _), Nat.cast_one, div_one, degrees_cast, percent_cast,
    percent_cast]

theorem hsv2rgb_result (hexec : exec .hsv2rgb s = .next t) :
    t.res[0].toNat = (hsvChannels s.ops).1 ∧ t.res[1].toNat = (hsvChannels s.ops).2.1 ∧
      t.res[2].toNat = (hsvChannels s.ops).2.2 := by
  obtain ⟨h0, h1, h2⟩ := hsvChannels_le s.ops
  have hcommits : exec .hsv2rgb s = finish (s.setTriple (hsvChannels s.ops)) := hsv2rgb_commits
  obtain ⟨-, hres⟩ := setTriple_committed hcommits hexec (by omega) (by omega) (by omega)
  exact hres

/-- The hue, saturation and value RGB2HSV computes from its operands (R205). -/
def hsvOfChannels (o : Operands) : Nat × Nat × Nat := rgbCore o.args[0].toNat o.args[1].toNat o.args[2].toNat

theorem hsvOfChannels_le {o : Operands} (hchannels : ¬o.channelTooBig 3) :
    (hsvOfChannels o).1 ≤ 360 ∧ (hsvOfChannels o).2.1 ≤ 100 ∧ (hsvOfChannels o).2.2 ≤ 100 :=
  have ⟨hr, hg, hb⟩ := not_channelTooBig_three.mp hchannels
  ⟨rgbCore_hue_le, rgbCore_saturation_le, rgbCore_value_le hr hg hb⟩

theorem rgb2hsv_result (hexec : exec .rgb2hsv s = .next t) (hchannels : ¬s.ops.channelTooBig 3) :
    t.res[0].toNat = (hsvOfChannels s.ops).1 ∧ t.res[1].toNat = (hsvOfChannels s.ops).2.1 ∧
      t.res[2].toNat = (hsvOfChannels s.ops).2.2 := by
  obtain ⟨h0, h1, h2⟩ := hsvOfChannels_le hchannels
  have hcommits : exec .rgb2hsv s = finish (s.setTriple (hsvOfChannels s.ops)) := rgb2hsv_commits hchannels
  obtain ⟨-, hres⟩ := setTriple_committed hcommits hexec (by omega) (by omega) (by omega)
  exact hres

end

/-! ### The obligations -/

/-- Settles O31: the datapath computes the formulas for the wrapped hue and the clamped percentages. -/
theorem hsv2rgbRoundsTheExactFormulas : Obligations.Hsv2rgbRoundsTheExactFormulas := by
  intro s
  obtain ⟨t, hexec, hsucc, hres, htext, hpalette⟩ := exec_succeeds (i := .hsv2rgb) (s := s) rfl (Nat.zero_le _)
  obtain ⟨h0, h1, h2⟩ := hsv2rgb_result hexec
  exact ⟨t, hexec, hsucc, (resTriple_eq h0 h1 h2).trans (hsvChannels_eq_hsvToRgb s.ops), hres 3 (by decide), htext rfl,
    hpalette rfl⟩

/-- Settles O32: the datapath computes the formulas for channels in range, and the check rejects the others. -/
theorem rgb2hsvRoundsTheExactFormulas : Obligations.Rgb2hsvRoundsTheExactFormulas := by
  refine fun s => ⟨fun hr hg hb => ?_, fun h => ?_⟩
  · have hchannels : ¬s.ops.channelTooBig 3 := not_channelTooBig_three.mpr ⟨hr, hg, hb⟩
    obtain ⟨t, hexec, hsucc, hres, htext, hpalette⟩ := exec_succeeds (i := .rgb2hsv) (if_neg hchannels) (Nat.zero_le _)
    obtain ⟨h0, h1, h2⟩ := rgb2hsv_result hexec hchannels
    exact ⟨t, hexec, hsucc, (resTriple_eq h0 h1 h2).trans rgbCore_eq_rgbToHsv, hres 3 (by decide), htext rfl,
      hpalette rfl⟩
  · exact exec_raises (if_pos (channelTooBig_three_iff.mpr h)) (by decide)

/-- Settles O33: the ranges of the two datapaths; the hue of (255, 0, 1) is 60·(0 - 1)/255 + 360, which rounds up. -/
theorem hsvResultsStayInRange : Obligations.HsvResultsStayInRange := by
  refine fun s t => ⟨fun hexec => ?_, fun hexec herr => ?_, fun hr hg hb => ?_⟩
  · obtain ⟨h0, h1, h2⟩ := hsv2rgb_result hexec
    rw [h0, h1, h2]
    exact hsvChannels_le s.ops
  · have hchannels : ¬s.ops.channelTooBig 3 := not_of_no_error (by decide) (noError_of_exec hexec herr)
    obtain ⟨h0, h1, h2⟩ := rgb2hsv_result hexec hchannels
    rw [h0, h1, h2]
    exact hsvOfChannels_le hchannels
  · have hchannels : ¬s.ops.channelTooBig 3 := by rw [not_channelTooBig_three, hr, hg, hb]; decide
    obtain ⟨u, hexec, hsucc, -⟩ := exec_succeeds (i := .rgb2hsv) (if_neg hchannels) (Nat.zero_le _)
    obtain ⟨hhue, -⟩ := rgb2hsv_result hexec hchannels
    rw [hsvOfChannels, hr, hg, hb] at hhue
    exact ⟨u, hexec, hsucc.err, hhue⟩

end Sys2Proof.Machine
end

section
/-! PROOFS. What a palette generator commits, and its colours over the rationals (43_palette.md R230 to R233). -/

namespace Sys2Proof.Machine

open Sys2Proof.Claims

/-! ### The palette a generator leaves -/

/-- A generator whose count is in range leaves that count and its colours, and changes nothing else (R230). -/
theorem palette_committed {i : Instr} {s t : State} {colour : Nat → Nat} (hcount : ¬s.ops.badCount s.cfg)
    (hcommits : exec i s = finish (s.commitPalette s.ops.args[0].toInt.toNat colour))
    (hcolour : ∀ k, colour k < 2 ^ 24) (hexec : exec i s = .next t) :
    (t.palcnt.toNat : ℤ) = s.ops.args[0].toInt ∧
      (∀ k : Fin 64, k.val < t.palcnt.toNat → t.pal[k].toNat = colour k.val) ∧
      (∀ k : Fin 64, t.palcnt.toNat ≤ k.val → t.pal[k] = s.pal[k]) ∧ t.res = s.res ∧ SameText s t := by
  obtain ⟨-, hmax, hsize, hcast⟩ := count_bounds hcount
  rw [hcommits, finish_eq] at hexec
  cases hexec
  have hpalcnt : (BitVec.ofNat 7 s.ops.args[0].toInt.toNat).toNat = s.ops.args[0].toInt.toNat :=
    Nat.mod_eq_of_lt (by omega)
  rw [complete_palcnt, commitPalette_palcnt, hpalcnt, complete_pal]
  refine ⟨hcast, fun k hk => ?_, fun k hk => ?_, rfl, rfl, rfl⟩
  · rw [commitPalette_get, if_pos hk]
    exact Nat.mod_eq_of_lt (hcolour k.val)
  · rw [commitPalette_get, if_neg (not_lt.mpr hk)]

/-- A generator whose count is in range and whose word is there succeeds, with entries of the given values. -/
theorem palette_succeeds {i : Instr} {s : State} {colour : Nat → Nat} {value : Nat → ℤ}
    (hcount : ¬s.ops.badCount s.cfg)
    (hcommits : exec i s = finish (s.commitPalette s.ops.args[0].toInt.toNat colour))
    (hcolour : ∀ k, colour k < 2 ^ 24) (hvalue : ∀ k, (colour k : ℤ) = value k) :
    ∃ t, exec i s = .next t ∧ Succeeded s t ∧ (t.palcnt.toNat : ℤ) = s.ops.args[0].toInt ∧
      (∀ k : Fin 64, k.val < t.palcnt.toNat → (t.pal[k].toNat : ℤ) = value k.val) ∧
      (∀ k : Fin 64, t.palcnt.toNat ≤ k.val → t.pal[k] = s.pal[k]) ∧ t.res = s.res ∧ SameText s t := by
  have hexec := hcommits.trans (finish_eq _)
  obtain ⟨hpalcnt, hentries, hrest⟩ := palette_committed hcount hcommits hcolour hexec
  exact ⟨_, hexec, succeeded_complete (sameOutside_commitPalette ..), hpalcnt,
    fun k hk => (congrArg _ (hentries k hk)).trans (hvalue k.val), hrest⟩

/-! ### The colours -/

/-- The packed colour of the datapath is that of the source's formulas (R201, R202). -/
theorem packTriple_hsvCore {n d sat : Nat} (val : Nat) (hd : 0 < d) (hs : sat ≤ 100) :
    (packTriple (hsvCore n d sat val) : ℤ) = packed (hsvToRgb ((n : ℚ) / d) (sat / 100) (val / 100)) := by
  rw [← hsvCore_eq_hsvToRgb val hd hs, packTriple, packRgbNumber]
  push_cast
  rfl

theorem evenColour_lt {count : Nat} (hcount : 0 < count) (k : Nat) : evenColour count k < 2 ^ 24 :=
  packTriple_hsvCore_lt hcount (by decide) (by decide)

/-- Colour k of the even palette has the hue 360k/count degrees (R231). -/
theorem evenColour_eq {count : Nat} (hcount : 0 < count) (k : Nat) :
    (evenColour count k : ℤ) = packed (hsvToRgb (k * 360 / count) (80 / 100) (60 / 100)) := by
  rw [evenColour, packTriple_hsvCore 60 hcount (by decide), mul_comm 360 k]
  push_cast
  rfl

theorem goldenColour_lt (u : Word) (k : Nat) : goldenColour u k < 2 ^ 24 :=
  packTriple_hsvCore_lt (by decide) (by decide) (by decide)

/-- The phase wraps modulo 2^32, the source's 'modulo 360' (R233). -/
theorem goldenPhase_toNat (u : Word) (k : Nat) :
    (goldenPhase u k).toNat = (u.toNat + k * 0x9E3779B9) % 2 ^ 32 := by
  have hphase : goldenPhase u k = BitVec.ofNat 32 (u.toNat + k * 0x9E3779B9) := by
    rw [BitVec.ofNat_add, BitVec.ofNat_mul, BitVec.ofNat_toNat, BitVec.setWidth_eq]
    rfl
  rw [hphase, BitVec.toNat_ofNat]

/-- Colour k of the golden palette has the hue of its phase, as a fraction of a turn (R233). -/
theorem goldenColour_eq (u : Word) (k : Nat) :
    (goldenColour u k : ℤ) = packed (hsvToRgb
      (((u.toNat + k * 0x9E3779B9) % 2 ^ 32 : ℕ) * 360 / 2 ^ 32) (70 / 100) (65 / 100)) := by
  rw [goldenColour, packTriple_hsvCore 65 (by decide) (by decide), goldenPhase_toNat, Nat.cast_mul, Nat.cast_pow]
  rfl

/-! ### The obligations -/

/-- Settles O34: the count check decides, and the datapath computes the formulas for the hue 360k/count. -/
theorem palEvenSweepsTheHue : Obligations.PalEvenSweepsTheHue := by
  refine fun s => ⟨fun hcount => ?_, fun hbad => exec_raises (if_pos hbad) (by decide)⟩
  obtain ⟨hpos, -, -, hcast⟩ := count_bounds hcount
  have hcast' : (s.ops.args[0].toInt.toNat : ℚ) = s.ops.args[0].toInt := by exact_mod_cast hcast
  have hvalue := evenColour_eq hpos
  rw [hcast'] at hvalue
  exact palette_succeeds hcount (palEven_commits hcount) (evenColour_lt hpos) hvalue

/-- Settles O35: the check comes before the draw, and the datapath computes the formulas for the hue of the phase. -/
theorem palGoldenStepsByTheGoldenRatio : Obligations.PalGoldenStepsByTheGoldenRatio :=
  fun _ => ⟨fun hcount u _ hdrawn =>
      palette_succeeds hcount (palGolden_commits hcount hdrawn) (goldenColour_lt u) (goldenColour_eq u),
    fun hbad => exec_raises (if_pos hbad) (by decide)⟩

end Sys2Proof.Machine
end

section
/-! PROOFS. RGB2HSV recovers the hues of an even palette of eight colours (43_palette.md R236). -/

namespace Sys2Proof.Machine

open Sys2Proof.Claims

/-- A lane of a colour is its shift, widened and masked to eight bits. -/
theorem colour_lane_toNat (c : Colour) (i : Nat) :
    ((c >>> (8 * i)).setWidth 32 &&& 0xFF).toNat = byteLane c.toNat i := by
  have hwide : (c.setWidth 32).toNat = c.toNat := BitVec.toNat_setWidth_of_le (by decide)
  have hshift : (c >>> (8 * i)).setWidth 32 = c.setWidth 32 >>> (8 * i) := BitVec.setWidth_ushiftRight (by decide)
  rw [hshift, shift_mask_toNat, hwide]

/-- Operands that are the lanes of a packed triple of channels are those channels. -/
theorem channels_of_packTriple {o : Operands} {c : Colour} {x : Nat × Nat × Nat} (hr : x.1 ≤ 255) (hg : x.2.1 ≤ 255)
    (hb : x.2.2 ≤ 255) (hc : c.toNat = packTriple x) (h0 : o.args[0] = (c >>> 16).setWidth 32 &&& 0xFF)
    (h1 : o.args[1] = (c >>> 8).setWidth 32 &&& 0xFF) (h2 : o.args[2] = c.setWidth 32 &&& 0xFF) :
    o.args[0].toNat = x.1 ∧ o.args[1].toNat = x.2.1 ∧ o.args[2].toNat = x.2.2 := by
  obtain ⟨lane2, lane1, lane0⟩ := byteLane_packRgb hr hg hb
  rw [← packTriple, ← hc] at lane2 lane1 lane0
  rw [h0, h1, h2]
  exact ⟨(colour_lane_toNat c 2).trans lane2, (colour_lane_toNat c 1).trans lane1, (colour_lane_toNat c 0).trans lane0⟩

/-- The eight colours, evaluated: the two datapaths round, and undo each other on these hues (R236). -/
theorem rgbCore_evenHue : ∀ k < 8,
    rgbCore (hsvCore (360 * k) 8 80 60).1 (hsvCore (360 * k) 8 80 60).2.1 (hsvCore (360 * k) 8 80 60).2.2 =
      (45 * k, 80, 60) := by decide

/-- Settles O36: the operands are the channels of the k-th hue, and the eight hues are evaluated. -/
theorem evenPaletteOfEightRecoversItsHues : Obligations.EvenPaletteOfEightRecoversItsHues := by
  intro s t u v k hcount hmax hpal hk h0 h1 h2 hexec
  have hvalue : s.ops.args[0].toInt = 8 := by rw [hcount]; decide
  have hgood : ¬s.ops.badCount s.cfg := by rw [Operands.badCount, hvalue]; omega
  obtain ⟨hpalcnt, hentries, -⟩ := palette_committed hgood (palEven_commits hgood) (evenColour_lt (by omega)) hpal
  have hentry := hentries k (by omega)
  rw [hvalue] at hentry
  obtain ⟨hr, hg, hb⟩ := hsvCore_le (n := 360 * k.val) (by decide : 0 < 8) (by decide : 80 ≤ 100) (by decide : 60 ≤ 100)
  obtain ⟨hred, hgreen, hblue⟩ := channels_of_packTriple hr hg hb hentry h0 h1 h2
  have hchannels : ¬u.ops.channelTooBig 3 := by rw [not_channelTooBig_three, hred, hgreen, hblue]; exact ⟨hr, hg, hb⟩
  have hcommits := rgb2hsv_commits hchannels
  rw [hred, hgreen, hblue, rgbCore_evenHue k.val hk] at hcommits
  have hhue : 45 * k.val < 2 ^ 32 := by omega
  exact setTriple_committed hcommits hexec hhue (by norm_num) (by norm_num)

end Sys2Proof.Machine
end

section
/-! PROOFS. The uniform mapping on the ranges the random generators use, and what each generator leaves in RES0
(44_random.md R250 to R258). -/

namespace Sys2Proof.Machine

open Sys2Proof.Claims

/-! ### The uniform mapping on the ranges in use -/

/-- The least draw maps to the lower end (R250). -/
theorem inRange_zero (lo hi : Nat) : inRange 0 lo hi = lo := by simp [inRange]

/-- The greatest draw maps to the upper end of a range of at most 2^32 values (R250). -/
theorem inRange_allOnes {lo hi : Nat} (hle : lo ≤ hi) (hlt : hi < 2 ^ 32) : inRange 0xFFFFFFFF lo hi = hi := by
  have hmax : (0xFFFFFFFF : Word).toNat = 2 ^ 32 - 1 := rfl
  rw [inRange, hmax]
  omega

/-- Over the 24-bit space the mapping keeps the upper 24 bits of the draw (R252). -/
theorem inRange_24 (u : Word) : inRange u 0 0xFFFFFF = (u >>> 8).toNat := by
  rw [BitVec.toNat_ushiftRight, Nat.shiftRight_eq_div_pow, inRange]
  omega

/-- Over the 32-bit space the mapping is the identity (R253). -/
theorem inRange_32 (u : Word) : inRange u 0 0xFFFFFFFF = u.toNat := by rw [inRange]; omega

/-- A bright channel takes the upper seven bits of its draw (R254). -/
theorem inRange_bright (u : Word) : inRange u 128 255 = 128 + u.toNat / 2 ^ 25 := by rw [inRange]; omega

/-- A pastel channel takes one of 51 values (R255). -/
theorem inRange_pastel (u : Word) : inRange u 180 230 = 180 + u.toNat * 51 / 2 ^ 32 := rfl

/-! ### Packed channels of one range -/

section

variable {lo hi : Nat}

theorem inRange_mem (hle : lo ≤ hi) (u : Word) : lo ≤ inRange u lo hi ∧ inRange u lo hi ≤ hi :=
  ⟨inRange_ge u lo hi, inRange_le u hle⟩

/-- A range within a byte gives a channel (R250). -/
theorem inRange_le_255 (hle : lo ≤ hi) (hmax : hi ≤ 255) (u : Word) : inRange u lo hi ≤ 255 :=
  (inRange_le u hle).trans hmax

theorem packRgb_inRange_lt (hle : lo ≤ hi) (hmax : hi ≤ 255) (ur ug ub : Word) :
    packRgbNumber (inRange ur lo hi) (inRange ug lo hi) (inRange ub lo hi) < 2 ^ 24 :=
  packRgbNumber_lt (inRange_le_255 hle hmax ur) (inRange_le_255 hle hmax ug) (inRange_le_255 hle hmax ub)

theorem packRgba_inRange_lt (hle : lo ≤ hi) (hmax : hi ≤ 255) (ur ug ub ua : Word) :
    packRgbaNumber (inRange ur lo hi) (inRange ug lo hi) (inRange ub lo hi) (inRange ua lo hi) < 2 ^ 32 :=
  packRgbaNumber_lt (inRange_le_255 hle hmax ur) (inRange_le_255 hle hmax ug) (inRange_le_255 hle hmax ub)
    (inRange_le_255 hle hmax ua)

/-- Every channel of the packed number lies in the range (R258). -/
theorem byteLane_drawnRgb (hle : lo ≤ hi) (hmax : hi ≤ 255) (drawn : List Word) :
    ∀ j < 3, lo ≤ byteLane (drawnRgb drawn lo hi) j ∧ byteLane (drawnRgb drawn lo hi) j ≤ hi := by
  have channel_le (k : Nat) := inRange_le_255 hle hmax (wordDrawn drawn k)
  obtain ⟨lane2, lane1, lane0⟩ := byteLane_packRgb (channel_le 0) (channel_le 1) (channel_le 2)
  intro j hj
  unfold drawnRgb
  interval_cases j
  · rw [lane0]; exact inRange_mem hle _
  · rw [lane1]; exact inRange_mem hle _
  · rw [lane2]; exact inRange_mem hle _

/-- The same with four channels, alpha too (R258). -/
theorem byteLane_drawnRgba (hle : lo ≤ hi) (hmax : hi ≤ 255) (drawn : List Word) :
    ∀ j < 4, lo ≤ byteLane (drawnRgba drawn lo hi) j ∧ byteLane (drawnRgba drawn lo hi) j ≤ hi := by
  have channel_le (k : Nat) := inRange_le_255 hle hmax (wordDrawn drawn k)
  obtain ⟨lane3, lane2, lane1, lane0⟩ :=
    byteLane_packRgba (channel_le 0) (channel_le 1) (channel_le 2) (channel_le 3)
  intro j hj
  unfold drawnRgba
  interval_cases j
  · rw [lane0]; exact inRange_mem hle _
  · rw [lane1]; exact inRange_mem hle _
  · rw [lane2]; exact inRange_mem hle _
  · rw [lane3]; exact inRange_mem hle _

end

/-! ### A commit of RES0 alone -/

section

variable {i : Instr} {s t : State} {v lo hi : Nat}

/-- A command that commits a value below 2^32 to RES0 succeeds with it there and changes no other output
(30_encoding.md R115). -/
theorem setRes_succeeds {n : Nat} (hcommits : exec i s = finish (s.setRes 0 v)) (hlt : v < 2 ^ 32) (hvalue : v = n) :
    ∃ t, exec i s = .next t ∧ Succeeded s t ∧ t.res[0].toNat = n ∧
      (∀ k : Fin 4, k ≠ 0 → t.res[k] = s.res[k]) ∧ SameText s t ∧ SamePalette s t :=
  ⟨_, hcommits, succeeded_complete (sameOutside_setRes ..), (setRes_get_self_toNat s 0 hlt).trans hvalue,
    fun _ hk => (setRes_get ..).trans (if_neg hk.symm), ⟨rfl, rfl⟩, ⟨rfl, rfl⟩⟩

/-- The same for a value given as a word. -/
theorem setRes_succeeds_word {w : Word} (hcommits : exec i s = finish (s.setRes 0 v)) (hvalue : v = w.toNat) :
    ∃ t, exec i s = .next t ∧ Succeeded s t ∧ t.res[0] = w ∧
      (∀ k : Fin 4, k ≠ 0 → t.res[k] = s.res[k]) ∧ SameText s t ∧ SamePalette s t := by
  obtain ⟨t, hexec, hsucc, hres, hframe⟩ := setRes_succeeds hcommits (hvalue ▸ w.isLt) hvalue
  exact ⟨t, hexec, hsucc, BitVec.eq_of_toNat_eq hres, hframe⟩

theorem setRes_committed (hcommits : exec i s = finish (s.setRes 0 v)) (hlt : v < 2 ^ 32)
    (hexec : exec i s = .next t) : t.res[0].toNat = v := by
  rw [hcommits, finish_eq] at hexec
  cases hexec
  exact setRes_get_self_toNat s 0 hlt

/-- A committed random RGB number has 24 bits and its channels in the range (R258). -/
theorem drawnRgb_committed (hle : lo ≤ hi) (hmax : hi ≤ 255)
    (hcommits : exec i s = finish (s.setRes 0 (drawnRgb s.drawn lo hi))) (hexec : exec i s = .next t) :
    t.res[0].toNat < 2 ^ 24 ∧ ∀ j < 3, lo ≤ t.res[0].toNat / 256 ^ j % 256 ∧ t.res[0].toNat / 256 ^ j % 256 ≤ hi := by
  have hlt : drawnRgb s.drawn lo hi < 2 ^ 24 := packRgb_inRange_lt hle hmax ..
  rw [setRes_committed hcommits (hlt.trans (by decide)) hexec]
  exact ⟨hlt, byteLane_drawnRgb hle hmax s.drawn⟩

/-- A committed random RGBA number has its channels in the range, alpha too (R258). -/
theorem drawnRgba_committed (hle : lo ≤ hi) (hmax : hi ≤ 255)
    (hcommits : exec i s = finish (s.setRes 0 (drawnRgba s.drawn lo hi))) (hexec : exec i s = .next t) :
    ∀ j < 4, lo ≤ t.res[0].toNat / 256 ^ j % 256 ∧ t.res[0].toNat / 256 ^ j % 256 ≤ hi := by
  have hlt : drawnRgba s.drawn lo hi < 2 ^ 32 := packRgba_inRange_lt hle hmax ..
  rw [setRes_committed hcommits hlt hexec]
  exact byteLane_drawnRgba hle hmax s.drawn

end

/-! ### The obligations -/

/-- Settles O37: the mapping of the draw into the bounds in order, with its two ends, and the check of the others. -/
theorem randRangeMapsItsDraw : Obligations.RandRangeMapsItsDraw := by
  refine ⟨by decide, fun s => ⟨fun hle u more hdrawn => ?_, fun h => exec_raises (if_pos h) (by decide)⟩⟩
  have hmax := s.ops.args[1].isLt
  obtain ⟨t, hexec, hsucc, hres, hframe⟩ :=
    setRes_succeeds (randRange_commits (not_lt.mpr hle) hdrawn) ((inRange_le u hle).trans_lt hmax) rfl
  refine ⟨t, hexec, hsucc, hres, fun hu => ?_, fun hu => ?_, hframe⟩
  · rw [hu, inRange_zero] at hres
    exact BitVec.eq_of_toNat_eq hres
  · rw [hu, inRange_allOnes hle hmax] at hres
    exact BitVec.eq_of_toNat_eq hres

/-- Settles O38: on these two ranges the mapping is a shift and the identity. -/
theorem randRgbAndRgbaTakeTheDraw : Obligations.RandRgbAndRgbaTakeTheDraw :=
  ⟨by decide, by decide, fun _ u _ hdrawn =>
    ⟨setRes_succeeds_word (randRgb_commits hdrawn) (inRange_24 u),
      setRes_succeeds_word (randRgba_commits hdrawn) (inRange_32 u)⟩⟩

/-- Settles O39: three mapped draws, packed in their order, on the two ranges of a channel. -/
theorem brightAndPastelRgbTakeThreeDraws : Obligations.BrightAndPastelRgbTakeThreeDraws := by
  refine ⟨by decide, by decide, fun s ur ug ub more hdrawn => ⟨?_, ?_⟩⟩
  · have hlt := packRgb_inRange_lt (by decide : 128 ≤ 255) (by decide) ur ug ub
    exact setRes_succeeds (randBrightRgb_commits hdrawn) (hlt.trans (by decide))
      (by simp only [packRgbNumber, inRange_bright])
  · have hlt := packRgb_inRange_lt (by decide : 180 ≤ 230) (by decide) ur ug ub
    exact setRes_succeeds (randPastelRgb_commits hdrawn) (hlt.trans (by decide))
      (by simp only [packRgbNumber, inRange_pastel])

/-- Settles O40: as O39, with four draws. -/
theorem brightAndPastelRgbaTakeFourDraws : Obligations.BrightAndPastelRgbaTakeFourDraws := by
  refine ⟨by decide, by decide, fun s ur ug ub ua more hdrawn => ⟨?_, ?_⟩⟩
  · exact setRes_succeeds (randBrightRgba_commits hdrawn) (packRgba_inRange_lt (by decide) (by decide) ..)
      (by simp only [packRgbaNumber, inRange_bright])
  · exact setRes_succeeds (randPastelRgba_commits hdrawn) (packRgba_inRange_lt (by decide) (by decide) ..)
      (by simp only [packRgbaNumber, inRange_pastel])

/-- Settles O41: every mapped draw lies in its range, and the lanes of a packed number are its channels. -/
theorem randomResultsStayInRange : Obligations.RandomResultsStayInRange := by
  refine fun s t => ⟨fun hdrawn hexec => ?_,
    fun hdrawn => drawnRgb_committed (by decide) (by decide) (exec_commits rfl hdrawn),
    fun hdrawn => drawnRgba_committed (by decide) (by decide) (exec_commits rfl hdrawn),
    fun hdrawn => drawnRgb_committed (by decide) (by decide) (exec_commits rfl hdrawn),
    fun hdrawn => drawnRgba_committed (by decide) (by decide) (exec_commits rfl hdrawn),
    fun hdrawn hexec herr => ?_⟩
  · have hmax := inRange_le (wordDrawn s.drawn 0) (Nat.zero_le 0xFFFFFF)
    rw [setRes_committed (exec_commits rfl hdrawn) (by omega) hexec]
    omega
  · have herror := noError_of_exec hexec herr
    have hmax := inRange_le (wordDrawn s.drawn 0) (not_lt.mp (not_of_no_error (by decide) herror))
    rw [setRes_committed (exec_commits herror hdrawn) (hmax.trans_lt s.ops.args[1].isLt) hexec]
    exact ⟨inRange_ge .., hmax⟩

end Sys2Proof.Machine
end

section
/-! PROOFS. Errors, waits and overruns (60_exceptions.md R280, R287, R301): no step stops, a command that lacks a word only
asks for it, a word is taken only on a request, a write that BUSY guards is dropped, and when `irq` rises. -/

namespace Sys2Proof.Machine

open Sys2Proof.Claims

section

variable {s t : State} {e : Input}

/-! ### The turns of the agents -/

theorem engineTurn_has_next (s : State) : ∃ t, engineTurn s = .next t := by
  rcases engineTurn_cases s with hstays | ⟨-, -, hends⟩
  · exact ⟨s, hstays⟩
  · exact hends.next

theorem takeInput_has_next (e : Input) (s : State) : ∃ t, takeInput e s = .next t := by
  cases e with
  | engine => exact engineTurn_has_next s
  | bus a => exact ⟨_, rfl⟩
  | rng u => exact ⟨_, rfl⟩
  | rstN level => exact ⟨_, rfl⟩

/-- A command whose operands call for no error and which lacks a word asks for it (R301, R335). -/
theorem exec_waits {i : Instr} (herror : commandError s.cfg i s.ops = .none) (hdrawn : s.drawn.length < i.draws) :
    exec i s = .next { s with rngReq := true } := by
  have ends := exec_turnEnds i s
  generalize exec i s = o at ends ⊢
  cases ends with
  | fails he => exact absurd herror he
  | waits => rfl
  | commits _ hd => exact absurd hd (not_le.mpr hdrawn)

/-- A requested word joins the draws of the command in flight and ends the request (R301). -/
theorem wordPresented_requested {w : Word} {ops : Operands} {drawn : List Word}
    (hengine : s.engine = .busy w ops drawn) (hreq : s.rngReq = true) (hrst : s.rstN = true) (u : Word) :
    wordPresented u s = { s with engine := .busy w ops (drawn ++ [u]), rngReq := false } := by
  simp [wordPresented, hengine, hreq, hrst]

/-- A word that no command asked for, or that comes while rst_n is low, is ignored (log 4). -/
theorem wordPresented_unrequested (h : s.engine = .idle ∨ s.rngReq = false ∨ s.rstN = false) (u : Word) :
    wordPresented u s = s := by
  unfold wordPresented
  split
  case h_1 => rfl
  case h_2 hbusy =>
    refine if_neg fun htaken => ?_
    obtain ⟨hreq, hrst⟩ := Bool.and_eq_true_iff.mp htaken
    rcases h with hidle | hnoReq | hlow
    · cases hbusy.symm.trans hidle
    · cases hreq.symm.trans hnoReq
    · cases hrst.symm.trans hlow

/-! ### Writes while BUSY -/

/-- A write that the register's write behaviour guards is an overrun while BUSY (R287, R331). -/
theorem write_overruns {off : Offset} {v : Word} (hrst : s.rstN = true) (hbusy : s.busy = true) (r : Reg)
    (hr : r.InMap s.cfg) (whenIdle : State) (hguard : writeReg s v r = guardedWrite s whenIdle)
    (hoff : off = r.offset) :
    busAccess (.write off 0b1111 v) s = { s with ovr := true, resp := some ⟨.okay, none⟩ } := by
  rw [hoff, write_answers hrst r hr, hguard, guardedWrite_busy hbusy]

/-! ### The interrupt output -/

/-- Only a CTRL write with bit 0 set, and without the soft reset, sets IRQ_EN (10_state.md R33). -/
theorem effect_irqEn_rises (h : Effect s e t) (hclear : s.irqEn = false) (hset : t.irqEn = true) :
    ∃ v, e = .bus (.write 0x008 0b1111 v) ∧ v.getLsbD 0 = true ∧ v.getLsbD 1 = false := by
  have unchanged (ht : t.irqEn = s.irqEn) : False := by simp [ht, hclear] at hset
  cases h with
  | wrote off v hrst u hu =>
    cases hu with
    | irqEnable hv => exact ⟨v, rfl, hset, hv⟩
    | softReset => cases hset
    | status | overrun | accepted | operand => exact (unchanged rfl).elim
  | asserted => cases hset
  | committed s' output => exact (unchanged output.outside.irqEn).elim
  | answered | stayed | waited | failed | tookWord | ignoredWord | released => exact (unchanged rfl).elim

/-- `irq` is the AND of IRQ_EN and DONE, so one of the two rises with it (R300). -/
theorem effect_irq_rises (h : Effect s e t) (hlow : s.irq = false) (hhigh : t.irq = true) :
    (Completes s e t ∧ t.done = true) ∨
      ∃ v, e = .bus (.write 0x008 0b1111 v) ∧ v.getLsbD 0 = true ∧ v.getLsbD 1 = false := by
  obtain ⟨henabled, hdone⟩ := Bool.and_eq_true_iff.mp hhigh
  rcases effect_flags h with hends | ⟨hkept, -, -⟩
  · exact .inl ⟨hends, hdone⟩
  · have hdisabled : s.irqEn = false := by simpa [State.irq, hkept hdone] using hlow
    exact .inr (effect_irqEn_rises h hdisabled henabled)

end

/-! ### The obligations -/

/-- Settles O8: with no event left the step is the engine's turn, and otherwise that of the oldest event. -/
theorem everyStepHasANextState : Obligations.EveryStepHasANextState := by
  intro s
  cases hinputs : s.inputs with
  | nil => rw [step_of_no_input hinputs]; exact engineTurn_has_next s
  | cons e rest => rw [step_of_input hinputs]; exact takeInput_has_next e _

/-- Settles O13: the error the operands call for is the one raised. -/
theorem errorsArePrecise : Obligations.ErrorsArePrecise := fun _ _ herror => exec_raises rfl herror

/-- Settles O14: of the three ends of a turn only the wait is left. -/
theorem commandWaitsForItsWords : Obligations.CommandWaitsForItsWords := fun _ _ => exec_waits

/-- Settles O42: the step is the source's turn, which takes the word or ignores it. -/
theorem wordIsTakenOnlyOnRequest : Obligations.WordIsTakenOnlyOnRequest := by
  intro s u rest hinputs
  rw [step_of_input hinputs, takeInput]
  refine ⟨fun _ _ _ hengine hreq hrst => congrArg Host.Outcome.next ?_,
    fun hunrequested => congrArg Host.Outcome.next ?_⟩
  · exact wordPresented_requested (s := { s with inputs := rest }) hengine hreq hrst u
  · exact wordPresented_unrequested (s := { s with inputs := rest }) hunrequested u

/-- Settles O49: each of the offsets is that of a register whose write behaviour is guarded; ARG and STRBUF take their index
from the offset. -/
theorem writesWhileBusyAreDropped : Obligations.WritesWhileBusyAreDropped := by
  intro s off v hrst hbusy haligned hguarded
  rcases hguarded with hoff | hoff | ⟨hlow, hhigh⟩ | ⟨hlow, hhigh⟩
  · exact write_overruns hrst hbusy .cmd nofun _ rfl (offset_eq_ofNat hoff)
  · exact write_overruns hrst hbusy .strlen nofun _ rfl (offset_eq_ofNat hoff)
  · obtain ⟨i, hi⟩ : ∃ i : Fin 4, off.toNat = 0x020 + 4 * i.val :=
      ⟨⟨(off.toNat - 0x020) / 4, by omega⟩, by dsimp only; omega⟩
    exact write_overruns hrst hbusy (.arg i) nofun _ rfl (offset_eq_ofNat hi)
  · obtain ⟨i, hi⟩ : ∃ i : Fin 4, off.toNat = 0x040 + 4 * i.val :=
      ⟨⟨(off.toNat - 0x040) / 4, by omega⟩, by dsimp only; omega⟩
    exact write_overruns hrst hbusy (.strbuf i) nofun _ rfl (offset_eq_ofNat hi)

/-- Settles O54: DONE rises only where a command ends, and IRQ_EN only by a CTRL write. -/
theorem interruptRisesOnlyAsStated : Obligations.InterruptRisesOnlyAsStated := by
  intro s t hstep hlow hhigh
  obtain ⟨e, rest, htakes, heffect⟩ := effect_step hstep
  rcases effect_irq_rises heffect hlow hhigh with ⟨hends, hdone⟩ | ⟨v, rfl, henable, hnoReset⟩
  · obtain ⟨hbusy, hidle, hnext⟩ := engineIsNext_of_completes htakes hends
    exact .inl ⟨hbusy, hidle, hdone, hnext⟩
  · exact .inr ⟨v, rest, takes_event htakes nofun, henable, hnoReset⟩

end Sys2Proof.Machine
end

section
/-! PROOFS. A silent random source (70_reset_and_hazards.md R335, 60_exceptions.md R301): no event but a word or a reset
moves a command that lacks a word, so it stays in flight for any number of steps. -/

namespace Sys2Proof.Machine

open Sys2Proof.Claims

/-! ### Runs -/

/-- A run whose first step has a next state is the rest of the run from there. -/
theorem run_succ_of_step {M : Host.Core} {s u : M.State} (h : M.step s = .next u) (n : Nat) :
    M.run (n + 1) s = M.run n u := by
  rw [Host.Core.run, h]

/-- What every step keeps, every run keeps. -/
theorem run_keeps {P : State → Prop} (keeps : ∀ u v, P u → step u = .next v → P v) {n : Nat} {s t : State} (hs : P s)
    (hrun : core.run n s = .next t) : P t := by
  induction n generalizing s with
  | zero => cases hrun; exact hs
  | succ n ih =>
    obtain ⟨u, hstep⟩ := everyStepHasANextState s
    exact ih (keeps s u hs hstep) ((run_succ_of_step (M := core) hstep n).symm.trans hrun)

/-! ### A command that lacks a word -/

/-- A legal command that raises no error is in flight with rst_n released and lacks a word (R301). -/
def LacksWord (s : State) : Prop :=
  s.rstN = true ∧ ∃ w ops drawn i, s.engine = .busy w ops drawn ∧ decode s.cfg w = .command i ∧
    commandError s.cfg i ops = .none ∧ drawn.length < i.draws

/-- The command in flight, its outputs and ERR stay as they are, and DONE is not set (R332). -/
structure StaysInFlight (s t : State) : Prop where
  cfg     : t.cfg = s.cfg
  rstN    : s.rstN = true → t.rstN = true
  engine  : t.engine = s.engine
  res     : t.res = s.res
  text    : SameText s t
  palette : SamePalette s t
  err     : t.err = s.err
  done    : t.done = true → s.done = true

section

variable {s t u : State}

/-- IRQ_EN, OVR, the request, the answer and the coming events may change, and DONE be cleared. -/
theorem staysInFlight_update {irqEn done ovr rngReq : Bool} {resp : Option Response} {inputs : List Input}
    (hdone : done = true → s.done = true) :
    StaysInFlight s
      { s with irqEn := irqEn, done := done, ovr := ovr, rngReq := rngReq, resp := resp, inputs := inputs } :=
  ⟨rfl, id, rfl, rfl, ⟨rfl, rfl⟩, ⟨rfl, rfl⟩, rfl, hdone⟩

theorem staysInFlight_trans (h : StaysInFlight s t) (k : StaysInFlight t u) : StaysInFlight s u where
  cfg := k.cfg.trans h.cfg
  rstN := k.rstN ∘ h.rstN
  engine := k.engine.trans h.engine
  res := k.res.trans h.res
  text := ⟨k.text.strlen.trans h.text.strlen, k.text.str.trans h.text.str⟩
  palette := ⟨k.palette.pal.trans h.palette.pal, k.palette.palcnt.trans h.palette.palcnt⟩
  err := k.err.trans h.err
  done := h.done ∘ k.done

theorem lacksWord_of_staysInFlight (hlacks : LacksWord s) (h : StaysInFlight s t) : LacksWord t := by
  obtain ⟨hrst, hflight⟩ := hlacks
  refine ⟨h.rstN hrst, ?_⟩
  rwa [h.cfg, h.engine]

/-- The engine's turn only asks for the word (R301, R335). -/
theorem engineTurn_lacksWord (h : LacksWord s) : engineTurn s = .next { s with rngReq := true } := by
  obtain ⟨hrst, w, ops, drawn, i, hengine, hdecode, herror, hshort⟩ := h
  rw [engineTurn_command hengine hrst hdecode]
  rw [← ops_of_busy hengine] at herror
  rw [← drawn_of_busy hengine] at hshort
  exact exec_waits herror hshort

/-- Only a step removes an event. -/
theorem effect_inputs {e : Input} (h : Effect s e t) : t.inputs = s.inputs := by
  cases h with
  | wrote off v hrst u hu => cases hu <;> rfl
  | committed s' output => exact output.outside.inputs
  | answered | stayed | waited | failed | tookWord | ignoredWord | released | asserted => rfl

/-- No bus access but a soft reset moves a command in flight (R331, R332). -/
theorem effect_bus_staysInFlight {a : BusAccess} (h : Effect s (.bus a) t) (hbusy : s.busy = true)
    (hsoft : softReset a = false) : StaysInFlight s t := by
  cases h with
  | answered => exact staysInFlight_update id
  | wrote off v hrst u hu =>
    cases hu with
    | softReset hv => exact absurd hsoft (by simp [softReset, hv])
    | accepted hidle | operand _ hidle => exact (not_idle_of_busy hidle hbusy).elim
    | status => exact staysInFlight_update Bool.and_elim_left
    | irqEnable | overrun => exact staysInFlight_update id

/-- No event but a word of the random source or a reset moves a command that lacks a word. -/
theorem takeInput_staysInFlight {e : Input} (hlacks : LacksWord s) (hsilent : wordOrReset e = false)
    (h : takeInput e s = .next t) : StaysInFlight s t := by
  cases e with
  | rng => cases hsilent
  | engine =>
    cases (engineTurn_lacksWord hlacks).symm.trans h
    exact staysInFlight_update id
  | bus a =>
    obtain ⟨-, w, ops, drawn, -, hengine, -⟩ := hlacks
    exact effect_bus_staysInFlight (effect_takeInput h) (busy_of_busy s w ops drawn hengine) hsilent
  | rstN level =>
    cases level with
    | false => cases hsilent
    | true => cases h; exact ⟨rfl, fun _ => rfl, rfl, rfl, ⟨rfl, rfl⟩, ⟨rfl, rfl⟩, rfl, id⟩

/-- No word of the random source and no reset is to come. -/
def Silent (s : State) : Prop := ∀ e ∈ s.inputs, wordOrReset e = false

/-- A step with a silent source keeps the command in flight, and the source stays silent. -/
theorem step_staysInFlight (hlacks : LacksWord s) (hsilent : Silent s) (h : step s = .next t) :
    StaysInFlight s t ∧ Silent t := by
  rcases step_cases h with ⟨-, hturn⟩ | ⟨e, rest, hcons, htake⟩
  · cases (engineTurn_lacksWord hlacks).symm.trans hturn
    exact ⟨staysInFlight_update id, hsilent⟩
  · obtain ⟨hevent, hrest⟩ : wordOrReset e = false ∧ ∀ x ∈ rest, wordOrReset x = false := by
      rwa [Silent, hcons, List.forall_mem_cons] at hsilent
    have hinputs : t.inputs = rest := effect_inputs (effect_takeInput htake)
    have hstays := takeInput_staysInFlight (s := { s with inputs := rest }) hlacks hevent htake
    exact ⟨staysInFlight_trans (staysInFlight_update id) hstays, fun x hx => hrest x (hinputs ▸ hx)⟩

end

/-- Settles O43: what the start state has in flight stays in flight, with the source silent, over every step of the run. -/
theorem silentSourceKeepsTheCommandInFlight : Obligations.SilentSourceKeepsTheCommandInFlight := by
  intro n s t w ops drawn i hengine hrst hdecode herror hshort hsilent hrun
  have hlacks : LacksWord s := ⟨hrst, w, ops, drawn, i, hengine, hdecode, herror, hshort⟩
  obtain ⟨hstays, -⟩ : StaysInFlight s t ∧ Silent t := by
    refine run_keeps (P := fun u => StaysInFlight s u ∧ Silent u) (fun u v hu hstep => ?_)
      ⟨staysInFlight_update id, hsilent⟩ hrun
    obtain ⟨hstays, hquiet⟩ := hu
    obtain ⟨hnext, hquiet'⟩ := step_staysInFlight (lacksWord_of_staysInFlight hlacks hstays) hquiet hstep
    exact ⟨staysInFlight_trans hstays hnext, hquiet'⟩
  exact ⟨hstays.engine, hstays.res, hstays.text, hstays.palette, hstays.err, hstays.done⟩

end Sys2Proof.Machine
end

section
/-! PROOFS. The completion write of STATUS (70_reset_and_hazards.md R330), and the two resets (R320 to R322). -/

namespace Sys2Proof.Machine

/-! ### Completion -/

/-- An error's completion writes nothing outside STATUS (60_exceptions.md R280). -/
theorem sameOutside_failedWith (c : ErrCode) (s : State) : SameOutside s (failedWith c s) :=
  ⟨rfl, rfl, rfl, rfl, rfl, rfl, rfl, rfl⟩

/-- Settles O12: the turn fails with the error the operands call for or commits; a wait has neither. -/
theorem completionWritesStatus : Obligations.CompletionWritesStatus := by
  intro i s hready
  have ends := exec_turnEnds i s
  generalize exec i s = o at ends ⊢
  cases ends with
  | fails he => exact ⟨_, rfl, rfl, rfl, rfl, rfl, iff_of_true rfl he, sameOutside_failedWith _ s⟩
  | waits he hd =>
    rcases hready with herror | hdrawn
    · exact absurd he herror
    · exact absurd hdrawn (not_le.mpr hd)
  | commits he hd s' output =>
    have ⟨hidle, hreq, hdone, herr, hcode, houtside⟩ := succeeded_complete output.outside
    rw [he]
    exact ⟨_, rfl, hidle, hreq, hdone, hcode, by simp, houtside⟩

/-! ### Resets -/

theorem writeCtrl_softReset {v : Word} (h : v.getLsbD 1 = true) (s : State) : writeCtrl v s = resetRegisters s := if_pos h

theorem writeCtrl_irqEnable {v : Word} (h : v.getLsbD 1 = false) (s : State) :
    writeCtrl v s = { s with irqEn := v.getLsbD 0 } := if_neg (ne_true_of_eq_false h)

/-- Settles O51: 0x008 is CTRL, and its bit 1 decides between the two behaviours of the write. -/
theorem ctrlWriteResetsOrSetsTheEnable : Obligations.CtrlWriteResetsOrSetsTheEnable := by
  intro s v hrst
  have hwrite : busAccess (.write 0x008 0b1111 v) s = { writeCtrl v s with resp := some ⟨.okay, none⟩ } :=
    write_answers hrst .ctrl nofun v
  refine ⟨fun hreset => ?_, fun henable => ?_⟩
  · rw [hwrite, writeCtrl_softReset hreset]
    have hbuffers : (∀ k : Fin 4, State.reset.args[k] = 0 ∧ State.reset.res[k] = 0) ∧
        (∀ j : Fin 16, State.reset.str[j] = 0) ∧ ∀ k : Fin 64, State.reset.pal[k] = 0 := by simp [State.reset]
    obtain ⟨hregs, hstr, hpal⟩ := hbuffers
    exact ⟨_, rfl, rfl, rfl, rfl, rfl, rfl, rfl, rfl, rfl, rfl, hregs, hstr, hpal, rfl, rfl, rfl, rfl, rfl⟩
  · rw [hwrite, writeCtrl_irqEnable henable]

theorem engineTurn_held {s : State} (hlow : s.rstN = false) : engineTurn s = .next s := if_neg (ne_true_of_eq_false hlow)

/-- While rst_n is low the engine and the random source do nothing, and a bus access has no answer (R320). -/
theorem takeInput_held {s : State} {e : Input} (hlow : s.rstN = false) (hpin : ∀ level, e ≠ .rstN level) :
    ∃ r, takeInput e s = .next { s with resp := r } ∧ ∀ a, e = .bus a → r = none := by
  cases e with
  | bus a => exact ⟨none, congrArg Host.Outcome.next (busAccess_unserviced hlow a), fun _ _ => rfl⟩
  | engine => exact ⟨s.resp, engineTurn_held hlow, nofun⟩
  | rng u => exact ⟨s.resp, congrArg Host.Outcome.next (wordPresented_unrequested (.inr (.inr hlow)) u), nofun⟩
  | rstN level => exact absurd rfl (hpin level)

/-- Settles O57: the step is the event's turn, and the pin's two levels are the two cases of `resetPin`. -/
theorem hardwareResetHoldsEverything : Obligations.HardwareResetHoldsEverything := by
  intro s e rest hinputs
  rw [step_of_input hinputs]
  refine ⟨?_, fun hlow hnotHigh hnotLow => ?_, ?_⟩
  · rintro rfl; rfl
  · exact takeInput_held (s := { s with inputs := rest }) hlow fun level => by cases level <;> assumption
  · rintro rfl; rfl

end Sys2Proof.Machine
end
